-- ==== Sys2Proof/Word.lean ====
section
/-! DEFINITION. The word types of libmsr-blk. The spec numbers bits from 0 at the least significant end and a byte
is 8 bits (00_scope R8). -/
namespace Sys2Proof

/-- A byte of the transport stream, of a track buffer or of the host address space (00_scope R8). -/
abbrev Byte := BitVec 8

/-- A 32-bit value of the host bus: a register, a command word, an address (10_state R30, 20_memory R90). -/
abbrev Word := BitVec 32

/-- The two bytes `ESC, code` of a wire command frame read as one number, the first byte sent in bits [15:8]
(30_encoding R129; the WIRE rows of the opcode table). -/
abbrev FrameWord := BitVec 16

end Sys2Proof
end

