-- ==== Sys2Proof/Syntax.lean ====
section
/-! DEFINITION. The instructions of libmsr-blk: the 24 operations a host issues by a command word (30_encoding R121)
and the 21 wire command frames the block emits on its transport port (30_encoding R129), one constructor for each row
of the opcode table. -/
namespace Sys2Proof

/-- One constructor per row of the opcode table. The operand fields are the fields of the command word that the
operation uses (30_encoding R121, R125); every other field must be 0 and is no operand. Which operand values are
legal is `Instr.wellFormed`. -/
inductive Instr where
  /-- NOP (45_control R350). -/
  | nop
  /-- GETBIT, `trk` is `CMD[9:8]` (40_bitbuffer R163). -/
  | getbit (trk : BitVec 2)
  /-- SETBIT (40_bitbuffer R164). -/
  | setbit (trk : BitVec 2)
  /-- REVBYTE (40_bitbuffer R165). -/
  | revbyte
  /-- REVTRACK (40_bitbuffer R166). -/
  | revtrack (trk : BitVec 2)
  /-- UNPACK (40_bitbuffer R167). -/
  | unpack (trk : BitVec 2)
  /-- REVBITS (40_bitbuffer R168). -/
  | revbits
  /-- RECTIFY (41_demodulator R192). -/
  | rectify
  /-- PEAKFIND (41_demodulator R203). -/
  | peakfind
  /-- EXTRACT (41_demodulator R214). -/
  | extract
  /-- DEMOD (41_demodulator R218). -/
  | demod
  /-- DECODE.ABA (42_track_decoder R244). -/
  | decodeAba
  /-- DECODE.IATA (42_track_decoder R245). -/
  | decodeIata
  /-- DEV.RESET (43_serial_protocol R272). -/
  | devReset
  /-- DEV.COMMTEST (43_serial_protocol R273). -/
  | devCommtest
  /-- DEV.READISO, `rty` is `CMD[12]` (43_serial_protocol R274, 44_retry R340). -/
  | devReadiso (rty : Bool)
  /-- DEV.READRAW (43_serial_protocol R275, 44_retry R340). -/
  | devReadraw (rty : Bool)
  /-- DEV.WRITEISO (43_serial_protocol R290). -/
  | devWriteiso
  /-- DEV.WRITERAW (43_serial_protocol R291). -/
  | devWriteraw
  /-- DEV.ERASE, `mask` is `CMD[31:24]` (43_serial_protocol R294). -/
  | devErase (mask : Byte)
  /-- DEV.MODEL (43_serial_protocol R295). -/
  | devModel
  /-- DEV.FIRMWARE (43_serial_protocol R296). -/
  | devFirmware
  /-- DEV.LZQUERY (43_serial_protocol R297). -/
  | devLzquery
  /-- DEV.XCMD, `code` is `CMD[31:24]` (43_serial_protocol R300). -/
  | devXcmd (code : Byte)
  /-- The wire frame `1B 72`, read in ISO format (30_encoding R129). -/
  | wireRead
  /-- The wire frame `1B 77`, write in ISO format. -/
  | wireWrite
  /-- The wire frame `1B 6D`, raw read. -/
  | wireRawread
  /-- The wire frame `1B 6E`, raw write. -/
  | wireRawwrite
  /-- The wire frame `1B 65`, communication diagnostic. -/
  | wireCommdiag
  /-- The wire frame `1B 86`, sensor diagnostic. -/
  | wireSensordiag
  /-- The wire frame `1B 87`, RAM diagnostic. -/
  | wireRamdiag
  /-- The wire frame `1B 74`, model query. -/
  | wireModel
  /-- The wire frame `1B 76`, firmware query. -/
  | wireFirmware
  /-- The first two bytes of the erase frame, `1B 63`; the mask byte is the operation's payload (30_encoding R130). -/
  | wireErase
  /-- The wire frame `1B 62`, set BPI. -/
  | wireSetbpi
  /-- The wire frame `1B 6F`, set BPC. -/
  | wireSetbpc
  /-- The wire frame `1B 61`, device reset. -/
  | wireReset
  /-- The wire frame `1B 81`, LED. -/
  | wireLed81
  /-- The wire frame `1B 82`, LED. -/
  | wireLed82
  /-- The wire frame `1B 83`, LED. -/
  | wireLed83
  /-- The wire frame `1B 84`, LED. -/
  | wireLed84
  /-- The wire frame `1B 85`, LED. -/
  | wireLed85
  /-- The wire frame `1B 78`, coercivity high. -/
  | wireCoercivityhi
  /-- The wire frame `1B 79`, coercivity low. -/
  | wireCoercivitylo
  /-- The wire frame `1B 6C`, leading-zeros query at the default of `P_LZ_CMD`. -/
  | wireLzquery
  deriving DecidableEq, Repr

/-- An encoded instruction: a 32-bit command word of the host (30_encoding R120) or the two bytes of a wire command
frame (30_encoding R129). The spec's two encoding spaces are separate (00_scope R3). -/
inductive CodeWord where
  | command (w : Word)
  | frame (w : FrameWord)
  deriving DecidableEq, Repr

end Sys2Proof
end

