-- ==== Sys2Proof/WellFormed.lean ====
section
/-! DEFINITION. Which operand values of an instruction are legal, read from the TRK, RTY and ARG columns of
30_encoding R121. The bounds on operand registers are checked at acceptance (60_exceptions R371), not here. -/
namespace Sys2Proof

/-- 30_encoding R122: the four track operations take a track index 1, 2 or 3; the value 0 is illegal for them. RTY
takes both values where it is an operand (R123) and ARG every byte (R124). -/
def Instr.wellFormed : Instr → Bool
  | .getbit trk => trk != 0#2
  | .setbit trk => trk != 0#2
  | .revtrack trk => trk != 0#2
  | .unpack trk => trk != 0#2
  | .nop => true
  | .revbyte => true
  | .revbits => true
  | .rectify => true
  | .peakfind => true
  | .extract => true
  | .demod => true
  | .decodeAba => true
  | .decodeIata => true
  | .devReset => true
  | .devCommtest => true
  | .devReadiso _ => true
  | .devReadraw _ => true
  | .devWriteiso => true
  | .devWriteraw => true
  | .devErase _ => true
  | .devModel => true
  | .devFirmware => true
  | .devLzquery => true
  | .devXcmd _ => true
  | .wireRead => true
  | .wireWrite => true
  | .wireRawread => true
  | .wireRawwrite => true
  | .wireCommdiag => true
  | .wireSensordiag => true
  | .wireRamdiag => true
  | .wireModel => true
  | .wireFirmware => true
  | .wireErase => true
  | .wireSetbpi => true
  | .wireSetbpc => true
  | .wireReset => true
  | .wireLed81 => true
  | .wireLed82 => true
  | .wireLed83 => true
  | .wireLed84 => true
  | .wireLed85 => true
  | .wireCoercivityhi => true
  | .wireCoercivitylo => true
  | .wireLzquery => true

end Sys2Proof
end

