-- ==== Sys2Proof/Decode.lean ====
section
/-! DEFINITION. The decoder and the encoder of both encoding spaces: the 32-bit command word (30_encoding R120 to
R127) and the wire command frame (30_encoding R128 to R130). -/
namespace Sys2Proof

/-- Why a word or a byte sequence is no instruction. -/
inductive DecodeError where
  /-- The OPC of a command word is not listed in 30_encoding R121. -/
  | reservedOpc
  /-- A bit of [11:10] or [23:13] of a command word is 1 (30_encoding R126). -/
  | reservedBits
  /-- TRK is not 0 in an operation that takes no track (30_encoding R122). -/
  | illegalTrk
  /-- RTY is 1 in an operation other than the two reads (30_encoding R123). -/
  | illegalRty
  /-- ARG is not 0 in an operation that takes no argument (30_encoding R124). -/
  | illegalArg
  /-- A wire frame does not begin with ESC (30_encoding R129). -/
  | missingEscape
  /-- The code of a wire frame is not listed in 30_encoding R129. -/
  | unlistedCode
  /-- The byte sequence is not two bytes long (a wire frame) or the bit count is no encoding's. -/
  | wrongLength
  deriving DecidableEq, Repr

/-- 30_encoding R120, R125: the operation code, `CMD[7:0]`. -/
def opcField (w : Word) : Byte := w.extractLsb' 0 8

/-- 30_encoding R120, R125: the track index, `CMD[9:8]`. -/
def trkField (w : Word) : BitVec 2 := w.extractLsb' 8 2

/-- 30_encoding R120, R125: the retry bit, `CMD[12]`. -/
def rtyField (w : Word) : Bool := w.getLsbD 12

/-- 30_encoding R120, R125: the byte argument, `CMD[31:24]`. -/
def argField (w : Word) : Byte := w.extractLsb' 24 8

/-- 30_encoding R120, R126: the reserved bits [11:10] and [23:13] are all 0. -/
def reservedClear (w : Word) : Bool := w.extractLsb' 10 2 == 0#2 && w.extractLsb' 13 11 == 0#11

/-- A row of 30_encoding R121 with TRK 0, RTY 0 and ARG 0. -/
def decodePlain (i : Instr) (w : Word) : Except DecodeError Instr :=
  if trkField w ≠ 0#2 then .error .illegalTrk
  else if rtyField w then .error .illegalRty
  else if argField w ≠ 0#8 then .error .illegalArg
  else .ok i

/-- A row of 30_encoding R121 with a track operand, RTY 0 and ARG 0. The track index is read as it stands; that 0 is
illegal is `Instr.wellFormed` (30_encoding R122, checked with the operand registers at acceptance, 60_exceptions
R371; log entry 10). -/
def decodeOnTrack (f : BitVec 2 → Instr) (w : Word) : Except DecodeError Instr :=
  if rtyField w then .error .illegalRty
  else if argField w ≠ 0#8 then .error .illegalArg
  else .ok (f (trkField w))

/-- A row of 30_encoding R121 with RTY 0 or 1, TRK 0 and ARG 0. -/
def decodeRetriable (f : Bool → Instr) (w : Word) : Except DecodeError Instr :=
  if trkField w ≠ 0#2 then .error .illegalTrk
  else if argField w ≠ 0#8 then .error .illegalArg
  else .ok (f (rtyField w))

/-- A row of 30_encoding R121 with a byte argument, TRK 0 and RTY 0. -/
def decodeWithArg (f : Byte → Instr) (w : Word) : Except DecodeError Instr :=
  if trkField w ≠ 0#2 then .error .illegalTrk
  else if rtyField w then .error .illegalRty
  else .ok (f (argField w))

/-- The rows of the operation map 30_encoding R121, on a word whose reserved bits are 0. -/
def decodeOpc (w : Word) : Except DecodeError Instr :=
  match (opcField w).toNat with
  | 0x00 => decodePlain .nop w
  | 0x01 => decodeOnTrack .getbit w
  | 0x02 => decodeOnTrack .setbit w
  | 0x03 => decodePlain .revbyte w
  | 0x04 => decodeOnTrack .revtrack w
  | 0x05 => decodeOnTrack .unpack w
  | 0x06 => decodePlain .revbits w
  | 0x10 => decodePlain .rectify w
  | 0x11 => decodePlain .peakfind w
  | 0x12 => decodePlain .extract w
  | 0x13 => decodePlain .demod w
  | 0x20 => decodePlain .decodeAba w
  | 0x21 => decodePlain .decodeIata w
  | 0x30 => decodePlain .devReset w
  | 0x31 => decodePlain .devCommtest w
  | 0x32 => decodeRetriable .devReadiso w
  | 0x33 => decodeRetriable .devReadraw w
  | 0x34 => decodePlain .devWriteiso w
  | 0x35 => decodePlain .devWriteraw w
  | 0x36 => decodeWithArg .devErase w
  | 0x37 => decodePlain .devModel w
  | 0x38 => decodePlain .devFirmware w
  | 0x39 => decodePlain .devLzquery w
  | 0x3A => decodeWithArg .devXcmd w
  | _ => .error .reservedOpc

/-- The instruction a command word encodes, or why it encodes none (30_encoding R126). -/
def decodeCommand (w : Word) : Except DecodeError Instr :=
  if reservedClear w then decodeOpc w else .error .reservedBits

/-- The command codes of 30_encoding R129. -/
def decodeCode (code : Byte) : Except DecodeError Instr :=
  match code.toNat with
  | 0x72 => .ok .wireRead
  | 0x77 => .ok .wireWrite
  | 0x6D => .ok .wireRawread
  | 0x6E => .ok .wireRawwrite
  | 0x65 => .ok .wireCommdiag
  | 0x86 => .ok .wireSensordiag
  | 0x87 => .ok .wireRamdiag
  | 0x74 => .ok .wireModel
  | 0x76 => .ok .wireFirmware
  | 0x63 => .ok .wireErase
  | 0x62 => .ok .wireSetbpi
  | 0x6F => .ok .wireSetbpc
  | 0x61 => .ok .wireReset
  | 0x81 => .ok .wireLed81
  | 0x82 => .ok .wireLed82
  | 0x83 => .ok .wireLed83
  | 0x84 => .ok .wireLed84
  | 0x85 => .ok .wireLed85
  | 0x78 => .ok .wireCoercivityhi
  | 0x79 => .ok .wireCoercivitylo
  | 0x6C => .ok .wireLzquery
  | _ => .error .unlistedCode

/-- The bytes of a wire command frame in the order they are sent (30_encoding R129). -/
def decodeFrameBytes : List Byte → Except DecodeError Instr
  | [esc, code] => if esc = 0x1B#8 then decodeCode code else .error .missingEscape
  | _ => .error .wrongLength

/-- The first byte sent of a frame word, bits [15:8]. -/
def FrameWord.first (w : FrameWord) : Byte := w.extractLsb' 8 8

/-- The second byte sent of a frame word, bits [7:0]. -/
def FrameWord.second (w : FrameWord) : Byte := w.extractLsb' 0 8

/-- The frame `ESC, code` as one number (30_encoding R129). -/
def commandFrame (code : Byte) : FrameWord := 0x1B#8 ++ code

/-- The wire command frame a frame word holds, its first byte first. -/
def decodeFrame (w : FrameWord) : Except DecodeError Instr := decodeFrameBytes [w.first, w.second]

/-- The decoder: total on the words of both encoding spaces, refusing by name. -/
def decode : CodeWord → Except DecodeError Instr
  | .command w => decodeCommand w
  | .frame w => decodeFrame w

/-- 30_encoding R120, R127: the word with the given fields, every reserved bit 0. -/
def commandWord (arg : Byte) (rty : Bool) (trk : BitVec 2) (opc : Byte) : Word :=
  arg ++ 0#11 ++ BitVec.ofBool rty ++ 0#2 ++ trk ++ opc

/-- The word of an instruction, written from 30_encoding R121 and R127 for a command word and from 30_encoding R129 for
a wire frame. -/
def encode : Instr → CodeWord
  | .nop => .command (commandWord 0 false 0 0x00)
  | .getbit trk => .command (commandWord 0 false trk 0x01)
  | .setbit trk => .command (commandWord 0 false trk 0x02)
  | .revbyte => .command (commandWord 0 false 0 0x03)
  | .revtrack trk => .command (commandWord 0 false trk 0x04)
  | .unpack trk => .command (commandWord 0 false trk 0x05)
  | .revbits => .command (commandWord 0 false 0 0x06)
  | .rectify => .command (commandWord 0 false 0 0x10)
  | .peakfind => .command (commandWord 0 false 0 0x11)
  | .extract => .command (commandWord 0 false 0 0x12)
  | .demod => .command (commandWord 0 false 0 0x13)
  | .decodeAba => .command (commandWord 0 false 0 0x20)
  | .decodeIata => .command (commandWord 0 false 0 0x21)
  | .devReset => .command (commandWord 0 false 0 0x30)
  | .devCommtest => .command (commandWord 0 false 0 0x31)
  | .devReadiso rty => .command (commandWord 0 rty 0 0x32)
  | .devReadraw rty => .command (commandWord 0 rty 0 0x33)
  | .devWriteiso => .command (commandWord 0 false 0 0x34)
  | .devWriteraw => .command (commandWord 0 false 0 0x35)
  | .devErase mask => .command (commandWord mask false 0 0x36)
  | .devModel => .command (commandWord 0 false 0 0x37)
  | .devFirmware => .command (commandWord 0 false 0 0x38)
  | .devLzquery => .command (commandWord 0 false 0 0x39)
  | .devXcmd code => .command (commandWord code false 0 0x3A)
  | .wireRead => .frame (commandFrame 0x72)
  | .wireWrite => .frame (commandFrame 0x77)
  | .wireRawread => .frame (commandFrame 0x6D)
  | .wireRawwrite => .frame (commandFrame 0x6E)
  | .wireCommdiag => .frame (commandFrame 0x65)
  | .wireSensordiag => .frame (commandFrame 0x86)
  | .wireRamdiag => .frame (commandFrame 0x87)
  | .wireModel => .frame (commandFrame 0x74)
  | .wireFirmware => .frame (commandFrame 0x76)
  | .wireErase => .frame (commandFrame 0x63)
  | .wireSetbpi => .frame (commandFrame 0x62)
  | .wireSetbpc => .frame (commandFrame 0x6F)
  | .wireReset => .frame (commandFrame 0x61)
  | .wireLed81 => .frame (commandFrame 0x81)
  | .wireLed82 => .frame (commandFrame 0x82)
  | .wireLed83 => .frame (commandFrame 0x83)
  | .wireLed84 => .frame (commandFrame 0x84)
  | .wireLed85 => .frame (commandFrame 0x85)
  | .wireCoercivityhi => .frame (commandFrame 0x78)
  | .wireCoercivitylo => .frame (commandFrame 0x79)
  | .wireLzquery => .frame (commandFrame 0x6C)

/-- The code word of an opcode-table row's number: the 16-bit WIRE rows are frames, first byte in bits [15:8] as the
table writes them; every other row is a command word, whose bits above `nbits` are 0. -/
def codeWordOfTable (nbits w : Nat) : CodeWord :=
  if nbits = 16 then .frame (BitVec.ofNat 16 w) else .command (BitVec.ofNat 32 (w % 2 ^ nbits))

/-- The instruction the decoder reads from an opcode-table row's word. -/
def decodeTableWord (nbits w : Nat) : Option Instr := (decode (codeWordOfTable nbits w)).toOption

end Sys2Proof
end

