-- ==== Sys2Proof/Machine/Bits.lean ====
section
/-! DEFINITION. Bit, byte and bitstring arithmetic shared by the operations. A bitstring is a list of symbols, the
earliest first (00_scope R11). -/
namespace Sys2Proof.Machine

/-- 40_bitbuffer R161: `rev8(b)[k] = b[7 - k]`. -/
def rev8 (b : Byte) : Byte :=
  BitVec.ofBool (b.getLsbD 0) ++ BitVec.ofBool (b.getLsbD 1) ++ BitVec.ofBool (b.getLsbD 2)
    ++ BitVec.ofBool (b.getLsbD 3) ++ BitVec.ofBool (b.getLsbD 4) ++ BitVec.ofBool (b.getLsbD 5)
    ++ BitVec.ofBool (b.getLsbD 6) ++ BitVec.ofBool (b.getLsbD 7)

/-- 40_bitbuffer R160: bit `i mod 8` of a byte counted MSB-first. -/
def bitMsbFirst (b : Byte) (i : Nat) : Bool := b.getLsbD (7 - i % 8)

/-- The byte with bit `i mod 8`, counted MSB-first, replaced by `v`; the other seven bits are kept (40_bitbuffer
R164). -/
def setBitMsbFirst (b : Byte) (i : Nat) (v : Bool) : Byte :=
  let mask := 1#8 <<< (7 - i % 8)
  if v then b ||| mask else b &&& ~~~mask

/-- The eight bits of a byte, MSB-first (40_bitbuffer R160). -/
def bitsOfByte (b : Byte) : List Bool := (List.range 8).map (bitMsbFirst b)

/-- What a 16-bit access of a `SMP` cell carries of a sample of `w` bits: its low `w` bits, zero-extended (20_memory R91,
R95, `P_SAMPLE_W`). -/
def sampleCell (w : Nat) (c : BitVec 16) : BitVec 16 := (c.setWidth w).setWidth 16

/-- 41_demodulator R191, `|sext_16(c)|` at `P_SAMPLE_W` = 16: the magnitude of a sample of `w` bits, 0 to `2^(w-1)`. -/
def mag (w : Nat) (c : BitVec 16) : Nat := (c.setWidth w).toInt.natAbs

/-- 41_demodulator R192, `mag(c) mod 2^16` at `P_SAMPLE_W` = 16: the cell RECTIFY stores. -/
def rectified (w : Nat) (c : BitVec 16) : BitVec 16 := BitVec.ofNat 16 (mag w c % 2 ^ w)

/-- The bytes of a 16-bit cell, least significant first (log entry 6). -/
def bytesOfHalf (v : BitVec 16) : List Byte := [v.extractLsb' 0 8, v.extractLsb' 8 8]

/-- The 16-bit cell with the given bytes, least significant first. -/
def halfOfBytes (b0 b1 : Byte) : BitVec 16 := b1 ++ b0

/-- The bytes of a 32-bit cell, least significant first (log entry 6). -/
def bytesOfWord (v : Word) : List Byte :=
  [v.extractLsb' 0 8, v.extractLsb' 8 8, v.extractLsb' 16 8, v.extractLsb' 24 8]

/-- The 32-bit value with the given bytes, byte 0 in bits [7:0] (20_memory R96). -/
def wordOfBytes (b0 b1 b2 b3 : Byte) : Word := b3 ++ b2 ++ b1 ++ b0

/-- Byte `k mod 4` of a 32-bit value, byte 0 in bits [7:0] (10_state R47, R58). -/
def byteOfWord (v : Word) (k : Nat) : Byte := v.extractLsb' (8 * (k % 4)) 8

/-- The byte a `BS` cell stores for a symbol: 0x00 or 0x01 (20_memory R98). -/
def byteOfBit (b : Bool) : Byte := if b then 1#8 else 0#8

/-- 42_track_decoder R231: the chunk holds an odd number of 1s. -/
def oddParity (c : List Bool) : Bool := c.foldl (fun acc b => acc ^^ b) false

/-- `sum c[j] * 2^j`, the first symbol least significant (42_track_decoder R232). -/
def valueOfBits : List Bool → Nat
  | [] => 0
  | b :: bs => b.toNat + 2 * valueOfBits bs

/-- Position-wise exclusive or of two bit sequences (42_track_decoder R239). -/
def xorBits (a b : List Bool) : List Bool := List.zipWith (fun x y => x ^^ y) a b

/-- 00_scope R9: `sat_N(v) = min(v, 2^N - 1)`, as an N-bit value. -/
def saturate (n v : Nat) : BitVec n := BitVec.ofNat n (min v (2 ^ n - 1))

end Sys2Proof.Machine
end

