-- ==== Sys2Proof/Config.lean ====
section
/-! DEFINITION. What an implementation fixes (the parameters of 00_scope R6) and the values the spec leaves open under
no law (20_memory R101, R110). -/
namespace Sys2Proof

/-- The implementation parameters of 00_scope R6, which a model takes as an argument. -/
structure Params where
  /-- `P_TRACKS`, tracks of the block; the source fixes it at 3, the three indices of `Machine.Track` (log entry 7). -/
  tracks : Nat
  /-- `P_TRACK_MAX`, bytes of a track buffer; the source fixes it at 255 (log entry 7). -/
  trackMax : Nat
  /-- `P_SAMPLE_W`, bits of one signed amplitude sample. -/
  sampleW : Nat
  /-- `P_NS_MAX`, sample-memory cells. -/
  nsMax : Nat
  /-- `P_NI_MAX`, interval-memory cells. -/
  niMax : Nat
  /-- `P_BS_MAX`, bitstring-memory cells. -/
  bsMax : Nat
  /-- `P_DEC_MAX`, decoded-character bytes. -/
  decMax : Nat
  /-- `P_FIRST`, the index of the first interval the symbol extractor examines. -/
  first : Nat
  /-- `P_WINDOW_CLOSED`, whether the tolerance windows include their end points. -/
  windowClosed : Bool
  /-- `P_START_SCAN`, bytes examined for the START delimiter; free, by default the source's value (log entry 27). -/
  startScan : Nat
  /-- `P_ERR_DELIMS`, bytes that end a read track as a framing error. -/
  errDelims : List Byte
  /-- `P_READ_TRAILER_LEN`, bytes of the end-of-transaction status of a read. -/
  readTrailerLen : Nat
  /-- `P_WCONF_LEN`, bytes of the write confirmation. -/
  wconfLen : Nat
  /-- `P_ERASE_LEN`, bytes of the erase status; free, by default the source's value (log entry 27). -/
  eraseLen : Nat
  /-- `P_MODEL_LEN`, bytes of the model response. -/
  modelLen : Nat
  /-- `P_FW_LEN`, bytes of the firmware response. -/
  fwLen : Nat
  /-- `P_LZ_CMD`, command code of the leading-zeros query. -/
  lzCmd : Byte
  /-- `P_LZ_LEN`, bytes of the leading-zeros response. -/
  lzLen : Nat
  /-- `P_COMMTEST_OK`, the status byte that ends a communication test. -/
  commtestOk : Byte
  /-- `P_MODEL_SET`, the legal model bytes; free, by default the source's value (log entry 27). -/
  modelSet : List Byte
  /-- `P_SETTLE_TICKS`, ticks the block waits after a device reset. -/
  settleTicks : Nat
  /-- `P_WIRE_W`, bits of an on-wire byte counter. -/
  wireW : Nat
  deriving DecidableEq, Repr

/-- A length that the 16-byte response buffer holds (00_scope R7). -/
def fitsResponse (n : Nat) : Bool := decide (1 ≤ n ∧ n ≤ 16)

/-- 00_scope R7, what the parameters must satisfy; 00_scope R6, `P_TRACKS` and `P_TRACK_MAX` as the source fixes them;
20_memory R92, what keeps the memory windows disjoint; and the room that the layout gives the two widths, the 16-bit
cell of `SMP` (20_memory R92) and `TK_WIREt[15:0]` (10_state R59; log entry 7). DESIGN CHOICE, safe: 00_scope R6 marks
`P_START_SCAN`, `P_ERASE_LEN` and `P_MODEL_SET` `source` too, and here they stay free, the source's values being their
defaults, as 00_scope R7 bounds `P_ERASE_LEN` and 93_implementation_defined U27 lists `P_MODEL_SET` (log entry 27). -/
def Params.valid (p : Params) : Bool :=
  fitsResponse p.readTrailerLen && fitsResponse p.wconfLen && fitsResponse p.eraseLen
    && fitsResponse p.modelLen && fitsResponse p.fwLen && fitsResponse p.lzLen
    && decide (2 ≤ p.modelLen)
    && decide ((p.nsMax + 1) / 2 ≤ p.niMax)
    && decide (p.niMax ≤ p.bsMax) && decide (8 * p.trackMax ≤ p.bsMax)
    && decide (p.bsMax / 5 + 2 ≤ p.decMax)
    && (p.first == 2 || p.first == 3)
    && decide (p.decMax ≤ 0x100000) && decide (p.bsMax ≤ 0xE00000) && decide (p.nsMax ≤ 0x800000)
    && p.tracks == 3 && p.trackMax == 255
    && decide (1 ≤ p.sampleW ∧ p.sampleW ≤ 16) && decide (1 ≤ p.wireW ∧ p.wireW ≤ 16)

/-- 20_memory R110, 70_reset R400: what a memory byte that no write has reached since power-on holds, a draw under no
law, one draw for each host address. No body: no proof can see a value (log entry 4). -/
opaque Config.powerOnByte : Nat → Byte

/-- 20_memory R101: the unspecified value a host read of a memory window returns while BUSY, a draw under no law; the
argument counts the draws, so that no two reads need agree. No body (log entry 5). -/
opaque Config.busyRead : Nat → Word

end Sys2Proof
end

