-- ==== Sys2Proof/Machine/Registers.lean ====
section
/-! DEFINITION. The registers, the operation sequencer and the moves of the agents, as plain data, with the reset values
of 70_reset R401 and the default parameters of 00_scope R6. -/
namespace Sys2Proof.Machine

/-- A track index 1, 2 or 3 (00_scope R6 `P_TRACKS`). -/
inductive Track where
  | t1 | t2 | t3
  deriving DecidableEq, Repr

/-- The error codes of 60_exceptions R360. The codes 11 to 15 are never written, so they have no constructor (U8). -/
inductive ErrCode where
  /-- 0, no error. -/
  | none
  /-- 1, raised at the acceptance of a command word (60_exceptions R371). -/
  | illegalCommand
  /-- 2, GETBIT and SETBIT. -/
  | rangeError
  /-- 3, EXTRACT and DEMOD. -/
  | noDataError
  /-- 4, the decoder. -/
  | noStartSentinel
  /-- 5, the decoder. -/
  | noEndSentinel
  /-- 6, the decoder. -/
  | parityError
  /-- 7, the decoder. -/
  | checksumError
  /-- 8, every transaction (43_serial_protocol R302). -/
  | transportError
  /-- 9, reads and queries. -/
  | framingError
  /-- 10, the transactions that compare a status byte (43_serial_protocol R271). -/
  | deviceStatusError
  deriving DecidableEq, Repr

/-- `CTRL` (10_state R32). SRST has no storage: it reads 0 (R35). -/
structure Ctrl where
  vcDis : Bool
  irqEn : Bool
  maxAtt : BitVec 8
  deriving DecidableEq, Repr

/-- `STATUS` (10_state R38). -/
structure Status where
  busy : Bool
  done : Bool
  err : Bool
  cmdOvr : Bool
  haz : Bool
  waitRx : Bool
  settling : Bool
  waitTx : Bool
  errcode : ErrCode
  tkerr : BitVec 3
  laststat : Byte
  attempts : BitVec 8
  deriving DecidableEq, Repr

/-- The registers of one track (10_state R59): `TK_CAPt`, `TK_LENt`, `TK_WIREt`. -/
structure TrackRegs where
  cap : Byte
  len : Byte
  wire : BitVec 16
  deriving DecidableEq, Repr

/-- The control and status registers (10_state R30), each at the width of its fields, so that reserved bits have no
storage and read 0 (R31). -/
structure Csr where
  ctrl : Ctrl
  /-- `CMD` (R37). -/
  cmd : Word
  status : Status
  /-- `FREQ_THRES[7:0]` (R48). -/
  freqThres : Byte
  /-- `SIL_THRES[15:0]` (R49). -/
  silThres : BitVec 16
  /-- `NSAMP` (R50). -/
  nsamp : Word
  /-- `NPEAK` (R51). -/
  npeak : Word
  /-- `NINT` (R52). -/
  nint : Word
  /-- `ZEROBL` (R53). -/
  zerobl : Word
  /-- `BSLEN` (R54). -/
  bslen : Word
  /-- `DECLEN` (R55). -/
  declen : Word
  /-- `BITIDX` (R56). -/
  bitidx : Word
  /-- `BITVAL[0]` (R56). -/
  bitval : Bool
  /-- `REVB.BYTE_IN` (R57). -/
  byteIn : Byte
  /-- `REVB.BYTE_OUT` (R57). -/
  byteOut : Byte
  /-- `XCTL.XTXLEN` (R58). -/
  xtxlen : BitVec 4
  /-- `XCTL.XRXLEN` (R58). -/
  xrxlen : BitVec 4
  /-- `XCTL.XCHK` (R58). -/
  xchk : Bool
  /-- `XPAY0` (R58). -/
  xpay0 : Word
  /-- `XPAY1` (R58). -/
  xpay1 : Word
  /-- `RESPLEN[4:0]` (R47). -/
  resplen : BitVec 5
  /-- `RESPB[0..15]`, read through `RESP0` to `RESP3` (R47). -/
  respb : Vector Byte 16
  /-- The registers of track 1 (R59). -/
  tk1 : TrackRegs
  /-- The registers of track 2 (R59). -/
  tk2 : TrackRegs
  /-- The registers of track 3 (R59). -/
  tk3 : TrackRegs
  deriving DecidableEq, Repr

/-- Which byte of a command frame a `SendCmd` is sending (43_serial_protocol R270). -/
inductive FrameByte where
  | esc | code
  deriving DecidableEq, Repr

/-- A position in a transaction's pseudocode (10_state R60): the start, or a `Send`, `Recv` or `SettleWait` at which it
is blocked, with the index, counter or byte that the position carries. -/
inductive Point where
  /-- The start of the pseudocode, where acceptance puts it (60_exceptions R370). -/
  | start
  /-- In one of the two `Send` of `SendCmd` (43_serial_protocol R270). -/
  | frame (w : FrameWord) (b : FrameByte)
  /-- In `SettleWait` with `left` ticks to come (60_exceptions R384). -/
  | settle (left : Nat)
  /-- In the `Recv` of DEV.COMMTEST (43_serial_protocol R273). -/
  | commtest
  /-- In the START scan, `examined` bytes behind it (43_serial_protocol R276, R277). -/
  | scan (examined : Nat)
  /-- In the `Recv` of the ESC of track t's header (43_serial_protocol R276, R278). -/
  | headerEsc (t : Track)
  /-- In the `Recv` of the number of track t's header (43_serial_protocol R276, R278). -/
  | headerNum (t : Track)
  /-- In the `Recv` of a data byte of track t (43_serial_protocol R276, R279). -/
  | trackData (t : Track)
  /-- In the `Recv` of a byte of a fixed-size response, `left` bytes still to receive, this one among them. -/
  | reply (left : Nat)
  /-- In `Send(CMD.ARG)` of DEV.ERASE (43_serial_protocol R294). -/
  | eraseMask (mask : Byte)
  /-- In `Send(START)` of a write (43_serial_protocol R292). -/
  | writeStart
  /-- In `Send(ESC)` of track t of a write. -/
  | writeEsc (t : Track)
  /-- In `Send(t)` of track t of a write. -/
  | writeNum (t : Track)
  /-- In `Send(L)` of track t of a raw write. -/
  | writeLen (t : Track)
  /-- In `Send(TRK[t][j])` of a write. -/
  | writeData (t : Track) (j : Nat)
  /-- In `Send(END)` of a write. -/
  | writeEnd
  /-- In `Send(FS)` of a write. -/
  | writeFs
  /-- In `Send(XPAY[k])` of DEV.XCMD (43_serial_protocol R300). -/
  | payload (k : Nat)
  deriving DecidableEq, Repr

/-- The local variables of a transaction that outlive a position (10_state R60): those of the retry loop, `a` the
attempts begun, unsaturated, and `m` the value of `CTRL.MAX_ATT` at acceptance (44_retry R342). -/
structure Locals where
  attempts : Nat
  maxAtt : BitVec 8
  deriving DecidableEq, Repr

/-- No locals (60_exceptions R370). -/
def Locals.empty : Locals := { attempts := 0, maxAtt := 0 }

/-- The operation sequencer (10_state R60), the block's counterpart of a program counter. -/
inductive Seq where
  | idle
  /-- A compute operation accepted and not yet performed. -/
  | run (cmd : Word)
  /-- A transaction at a position of its pseudocode. -/
  | txn (cmd : Word) (point : Point) (locals : Locals)
  deriving DecidableEq, Repr

/-- The width of a host access, 1, 2 or 4 bytes (20_memory R95). -/
inductive Width where
  | byte | half | word
  deriving DecidableEq, Repr

/-- A host bus access (20_memory R95). A write of fewer than four bytes carries its value in the low bits. -/
inductive Access where
  | read (addr : Word) (n : Width)
  | write (addr : Word) (n : Width) (v : Word)
  deriving DecidableEq, Repr

/-- What a host access answers (20_memory R94, R95): a value, 0 for a write, and whether it was a bus error. -/
structure BusReply where
  data : Word
  busError : Bool
  deriving DecidableEq, Repr

/-- One move of one agent (00_scope R14). The spec leaves the order of moves free (20_memory R103, 60_exceptions R365);
the model reads it from a list in State (log entry 1). -/
inductive Action where
  /-- The host's next bus access takes effect. -/
  | host (a : Access)
  /-- The device puts a byte on the stream toward the block (60_exceptions R381: it stays queued until a `Recv`). -/
  | device (b : Byte)
  /-- The transport takes the byte a pending `Send` offers (60_exceptions R381). -/
  | take
  /-- The transport delivers the next byte of the stream to a pending `Recv` (60_exceptions R381). -/
  | deliver
  /-- The transport signals an error at a pending `Send` or `Recv` (60_exceptions R382). -/
  | error
  /-- A pulse of the `tick` input (60_exceptions R383). -/
  | tick
  /-- The block takes a step that waits for no event: a compute operation, or the start of a transaction. -/
  | block
  deriving DecidableEq, Repr

/-- The default parameters of 00_scope R6. -/
def standardParams : Params :=
  { tracks := 3
    trackMax := 255
    sampleW := 16
    nsMax := 0x100000
    niMax := 0x80000
    bsMax := 0x100000
    decMax := 0x40000
    first := 3
    windowClosed := false
    startScan := 3
    errDelims := [0x1B#8]
    readTrailerLen := 3
    wconfLen := 2
    eraseLen := 2
    modelLen := 3
    fwLen := 9
    lzCmd := 0x6C#8
    lzLen := 3
    commtestOk := 0x79#8
    modelSet := [0x31#8, 0x32#8, 0x33#8, 0x35#8]
    settleTicks := 100
    wireW := 16 }

/-- `STATUS` after reset: every field 0 (70_reset R401). -/
def statusAtReset : Status :=
  { busy := false, done := false, err := false, cmdOvr := false, haz := false, waitRx := false, settling := false
    waitTx := false, errcode := .none, tkerr := 0, laststat := 0, attempts := 0 }

/-- The registers of a track after reset: `TK_CAPt` 0xFF, the others 0 (70_reset R401). -/
def trackRegsAtReset : TrackRegs := { cap := 0xFF, len := 0, wire := 0 }

/-- Every control and status register at its reset value (10_state R30, R65, 70_reset R401). -/
def csrAtReset : Csr :=
  { ctrl := { vcDis := false, irqEn := false, maxAtt := 0 }
    cmd := 0
    status := statusAtReset
    freqThres := 0, silThres := 0, nsamp := 0, npeak := 0, nint := 0, zerobl := 0, bslen := 0, declen := 0
    bitidx := 0, bitval := false, byteIn := 0, byteOut := 0
    xtxlen := 0, xrxlen := 0, xchk := false, xpay0 := 0, xpay1 := 0
    resplen := 0, respb := Vector.replicate 16 0
    tk1 := trackRegsAtReset, tk2 := trackRegsAtReset, tk3 := trackRegsAtReset }

end Sys2Proof.Machine
end

