-- ==== Sys2Proof/Machine/State.lean ====
section
/-! DEFINITION. The state of the machine: what the spec gives the block (10_state, 20_memory), the transport streams, and
the pending moves of the agents. -/
namespace Sys2Proof.Machine

/-- The contents of the memory windows, a list of (host address, byte) cells with addresses strictly rising. An
address that is not listed holds no written byte: it reads as the draw `Config.powerOnByte` (20_memory R110). -/
abbrev Memory := List Host.Cell

/-- The state of libmsr-blk and of what it is wired to. -/
structure State where
  /-- The implementation parameters (00_scope R6); no step changes them. -/
  params : Params
  /-- The control and status registers and the response buffer (10_state R30). -/
  csr : Csr
  /-- The memory windows TRK, DEC, BS, SMP and IVL (20_memory R91, R92). -/
  mem : Memory
  /-- The operation sequencer (10_state R60). -/
  seq : Seq
  /-- The bytes queued on the stream from the device, the next one to deliver first (20_memory R109). -/
  rx : List Byte
  /-- The bytes the transport has taken from the block, oldest first (20_memory R109). -/
  sent : List Byte
  /-- What the last host access answered; `none` before the first. -/
  busReply : Option BusReply
  /-- How many unspecified values host reads while BUSY have taken (20_memory R101). -/
  draws : Nat
  /-- The moves to come, the next one first (20_memory R103). -/
  agenda : List Action
  deriving DecidableEq, Repr

/-- The reasons a step can stop with a fault: none. The block has no traps: an error ends the operation and is
reported in `STATUS` (60_exceptions), and a bus error is a reply to the host (20_memory R94). -/
inductive Fault where
  deriving DecidableEq, Repr

/-- The reasons an instruction can be refused. -/
inductive Refusal where
  /-- Raised by an arm of `exec` whose instruction has no meaning yet; no arm is left that does. Safe. -/
  | notModelled (mnemonic : String)
  deriving DecidableEq, Repr

/-- The machine right after power-on (70_reset R400, R401): every register at its reset value, the sequencer IDLE, no
memory byte written. The default parameters are those of 00_scope R6. The streams, the reply, the draw counter and the
agenda are empty (log entries 1, 5 and 17). -/
def State.reset : State :=
  { params := standardParams
    csr := csrAtReset
    mem := []
    seq := .idle
    rx := []
    sent := []
    busReply := none
    draws := 0
    agenda := [] }

end Sys2Proof.Machine
end

