-- ==== Sys2Proof/Machine/Ops.lean ====
section
/-! DEFINITION. The operations over memory, registers and sequencer that the meanings share: cells of the five memories
(20_memory R91, R92), the position of the sequencer (10_state R60), and the end of an operation with an error code
(60_exceptions R362, R374), which is this block's counterpart of taking an exception. -/
namespace Sys2Proof.Machine

/-! ### Memory bytes -/

/-- The byte written at an address, if one was. -/
def Memory.byteAt : Memory → Nat → Option Byte
  | [], _ => none
  | (k, v) :: m, a => if k = a then some v else Memory.byteAt m a

/-- Write one byte, keeping the addresses strictly rising. -/
def Memory.store : Memory → Nat → Byte → Memory
  | [], a, b => [(a, b)]
  | (k, v) :: m, a, b =>
    if a < k then (a, b) :: (k, v) :: m
    else if a = k then (a, b) :: m
    else (k, v) :: Memory.store m a b

/-- Write consecutive bytes from an address upward. -/
def Memory.storeAll : Memory → Nat → List Byte → Memory
  | m, _, [] => m
  | m, a, b :: bs => Memory.storeAll (Memory.store m a b) (a + 1) bs

/-- The canonical form of a memory: addresses strictly rising. An unlisted address holds no written byte, so no entry
can repeat what an unlisted address holds (log entry 20). -/
abbrev Memory.wf (m : Memory) : Prop := m.Pairwise (fun x y => x.1 < y.1)

/-- What the byte at a host address reads as: the byte written there, or the power-on draw (20_memory R110). -/
def State.readByte (s : State) (a : Nat) : Byte := (s.mem.byteAt a).getD (Config.powerOnByte a)

/-- Write consecutive bytes of the host address space. -/
def State.writeBytes (s : State) (a : Nat) (bs : List Byte) : State := { s with mem := s.mem.storeAll a bs }

/-! ### The cells of the memories (20_memory R91, R92) -/

/-- The base of a track window. -/
def Track.base : Track → Nat
  | .t1 => 0x10000
  | .t2 => 0x10100
  | .t3 => 0x10200

/-- The address of `TRK[t][j]`. -/
def trkAddr (t : Track) (j : Nat) : Nat := t.base + j

/-- The address of `DEC[k]`. -/
def decAddr (k : Nat) : Nat := 0x100000 + k

/-- The address of `BS[k]`. -/
def bsAddr (k : Nat) : Nat := 0x200000 + k

/-- The address of `SMP[i]`. -/
def smpAddr (i : Nat) : Nat := 0x1000000 + 2 * i

/-- The address of `IVL[i]`. -/
def ivlAddr (i : Nat) : Nat := 0x2000000 + 4 * i

/-- `TRK[t][j]`. -/
def State.trk (s : State) (t : Track) (j : Nat) : Byte := s.readByte (trkAddr t j)

/-- `DEC[k]`. -/
def State.dec (s : State) (k : Nat) : Byte := s.readByte (decAddr k)

/-- `BS[k]`, one bit (20_memory R98). -/
def State.bs (s : State) (k : Nat) : Bool := (s.readByte (bsAddr k)).getLsbD 0

/-- `SMP[i]`, `P_SAMPLE_W` bits in a 16-bit cell. -/
def State.smp (s : State) (i : Nat) : BitVec 16 :=
  sampleCell s.params.sampleW (halfOfBytes (s.readByte (smpAddr i)) (s.readByte (smpAddr i + 1)))

/-- `IVL[i]`, 32 bits. -/
def State.ivl (s : State) (i : Nat) : Word :=
  wordOfBytes (s.readByte (ivlAddr i)) (s.readByte (ivlAddr i + 1)) (s.readByte (ivlAddr i + 2))
    (s.readByte (ivlAddr i + 3))

/-- Write `TRK[t][j], TRK[t][j+1], …`. -/
def State.writeTrk (s : State) (t : Track) (j : Nat) (bs : List Byte) : State := s.writeBytes (trkAddr t j) bs

/-- Write `DEC[0], DEC[1], …`. -/
def State.writeDec (s : State) (bs : List Byte) : State := s.writeBytes (decAddr 0) bs

/-- Write `BS[0], BS[1], …`. -/
def State.writeBs (s : State) (bits : List Bool) : State := s.writeBytes (bsAddr 0) (bits.map byteOfBit)

/-- Write `SMP[0], SMP[1], …`. -/
def State.writeSmp (s : State) (cells : List (BitVec 16)) : State :=
  s.writeBytes (smpAddr 0) (cells.flatMap bytesOfHalf)

/-- Write `IVL[0], IVL[1], …`. -/
def State.writeIvl (s : State) (cells : List Word) : State := s.writeBytes (ivlAddr 0) (cells.flatMap bytesOfWord)

/-! ### Registers -/

/-- The state with other control and status registers. -/
def State.withCsr (s : State) (c : Csr) : State := { s with csr := c }

/-- The state with another `STATUS`. -/
def State.withStatus (s : State) (st : Status) : State := { s with csr := { s.csr with status := st } }

/-- The registers of track t (10_state R59). -/
def Csr.tk (c : Csr) : Track → TrackRegs
  | .t1 => c.tk1
  | .t2 => c.tk2
  | .t3 => c.tk3

/-- The register file with other registers for track t. -/
def Csr.setTk (c : Csr) (t : Track) (r : TrackRegs) : Csr :=
  match t with
  | .t1 => { c with tk1 := r }
  | .t2 => { c with tk2 := r }
  | .t3 => { c with tk3 := r }

/-- The registers of track t. -/
def State.tk (s : State) (t : Track) : TrackRegs := s.csr.tk t

/-- The state with other registers for track t. -/
def State.setTk (s : State) (t : Track) (r : TrackRegs) : State := s.withCsr (s.csr.setTk t r)

/-- `R(RESPLEN) <- 0` (10_state R47). -/
def State.clearReply (s : State) : State := s.withCsr { s.csr with resplen := 0 }

/-- `RESPB[R(RESPLEN)] <- b; R(RESPLEN) <- R(RESPLEN) + 1` (10_state R47). With the parameters of 00_scope R7 no
operation appends a seventeenth byte; a full buffer keeps its bytes (log entry 18). -/
def State.appendReply (s : State) (b : Byte) : State :=
  if s.csr.resplen.toNat < 16 then
    s.withCsr { s.csr with
      respb := s.csr.respb.setIfInBounds s.csr.resplen.toNat b
      resplen := s.csr.resplen + 1 }
  else s

/-- Byte j of the response buffer. -/
def State.respByte (s : State) (j : Nat) : Byte := s.csr.respb.getD j 0

/-! ### The sequencer -/

/-- What a position waits for (10_state R60). -/
inductive Waiting where
  /-- Nothing: the block can go on by itself. -/
  | nothing
  /-- `Send`: the transport takes a byte or signals an error. -/
  | send
  /-- `Recv`: the transport delivers a byte or signals an error. -/
  | recv
  /-- `SettleWait`: a tick, of `left` to come. -/
  | ticks (left : Nat)
  deriving DecidableEq, Repr

/-- What a position of a transaction waits for. -/
def Point.waiting : Point → Waiting
  | .start => .nothing
  | .frame _ _ => .send
  | .settle left => .ticks left
  | .commtest => .recv
  | .scan _ => .recv
  | .headerEsc _ => .recv
  | .headerNum _ => .recv
  | .trackData _ => .recv
  | .reply _ => .recv
  | .eraseMask _ => .send
  | .writeStart => .send
  | .writeEsc _ => .send
  | .writeNum _ => .send
  | .writeLen _ => .send
  | .writeData _ _ => .send
  | .writeEnd => .send
  | .writeFs => .send
  | .payload _ => .send

/-- The progress bits of `STATUS` while the sequencer waits for `w` (10_state R44). -/
def Status.waitingFor (st : Status) (w : Waiting) : Status :=
  { st with
    waitTx := decide (w = .send)
    waitRx := decide (w = .recv)
    settling := match w with
      | .ticks _ => true
      | _ => false }

/-- `seq <- phase` within a transaction (00_scope R10): go to a position, with the progress bits that show it (10_state
R44). Outside a transaction nothing changes. -/
def State.moveTo (s : State) (p : Point) : State :=
  match s.seq with
  | .txn cmd _ l => { s.withStatus (s.csr.status.waitingFor p.waiting) with seq := .txn cmd p l }
  | .run _ => s
  | .idle => s

/-- The locals of the running transaction; none outside one. -/
def State.locals (s : State) : Locals :=
  match s.seq with
  | .txn _ _ l => l
  | .run _ => .empty
  | .idle => .empty

/-- The state with other locals of the running transaction. -/
def State.setLocals (s : State) (l : Locals) : State :=
  match s.seq with
  | .txn cmd p _ => { s with seq := .txn cmd p l }
  | .run _ => s
  | .idle => s

/-- The transaction of a command word at the start of its pseudocode, unless the sequencer is at a position of a
transaction already (60_exceptions R370). -/
def State.inTransaction (s : State) (cmd : Word) : State :=
  match s.seq with
  | .txn _ _ _ => s
  | .run _ => { s with seq := .txn cmd .start .empty }
  | .idle => { s with seq := .txn cmd .start .empty }

/-! ### The end of an operation -/

/-- `STATUS` after completion with code `e` (60_exceptions R374). -/
def Status.completed (st : Status) (e : ErrCode) : Status :=
  { st with
    err := decide (e ≠ .none), errcode := e
    waitRx := false, waitTx := false, settling := false
    busy := false, done := true }

/-- Completion with code `e`: `complete` is `e = NONE` and `raise E` is `e = E` (60_exceptions R362, R374). The block
saves nothing else (60_exceptions R367). -/
def State.completeWith (s : State) (e : ErrCode) : State :=
  { s.withStatus (s.csr.status.completed e) with seq := .idle }

/-- The end of a compute operation that its legality check admits, or the refusal by IllegalCommand. Acceptance has
checked the same bound (60_exceptions R371), so no run reaches the refusal here (log entry 11). -/
def State.performIf (legal : Bool) (s : State) (body : State → State × ErrCode) : State :=
  if legal then (body s).1.completeWith (body s).2 else s.completeWith .illegalCommand

/-! ### The agenda -/

/-- The next move, if one is listed. -/
def State.event (s : State) : Option Action := s.agenda.head?

/-- The state with the next move taken off the agenda. -/
def State.pop (s : State) : State := { s with agenda := s.agenda.tail }

end Sys2Proof.Machine
end

