-- ==== Sys2Proof/Machine/Flags.lean ====
section
/-! DEFINITION. The flags of the block, which are the bits of `STATUS` (10_state R64): how they are read as a word, what
a host write clears, what acceptance and refusal set, and the interrupt they drive. No operation has arithmetic flags. -/
namespace Sys2Proof.Machine

/-- The values of `STATUS.ERRCODE` (60_exceptions R360). -/
def ErrCode.bits : ErrCode → BitVec 4
  | .none => 0
  | .illegalCommand => 1
  | .rangeError => 2
  | .noDataError => 3
  | .noStartSentinel => 4
  | .noEndSentinel => 5
  | .parityError => 6
  | .checksumError => 7
  | .transportError => 8
  | .framingError => 9
  | .deviceStatusError => 10

/-- `STATUS` as the host reads it (10_state R38), bit 31 leftmost. -/
def Status.toWord (st : Status) : Word :=
  st.attempts ++ st.laststat ++ 0#1 ++ st.tkerr ++ st.errcode.bits
    ++ BitVec.ofBool st.waitTx ++ BitVec.ofBool st.settling ++ BitVec.ofBool st.waitRx ++ BitVec.ofBool st.haz
    ++ BitVec.ofBool st.cmdOvr ++ BitVec.ofBool st.err ++ BitVec.ofBool st.done ++ BitVec.ofBool st.busy

/-- A host write of `v` to `STATUS` (10_state R38, R40 to R43): a 1 in bit 1, 2, 3 or 4 clears DONE, ERR with ERRCODE,
CMD_OVR or HAZ. It is this block's counterpart of the return from an exception (60_exceptions R375). -/
def Status.acknowledge (st : Status) (v : Word) : Status :=
  { st with
    done := st.done && !v.getLsbD 1
    err := st.err && !v.getLsbD 2
    errcode := if v.getLsbD 2 then .none else st.errcode
    cmdOvr := st.cmdOvr && !v.getLsbD 3
    haz := st.haz && !v.getLsbD 4 }

/-- `STATUS` after acceptance (60_exceptions R370, R373). -/
def Status.accepted (st : Status) : Status :=
  { st with busy := true, done := false, err := false, errcode := .none, tkerr := 0, attempts := 0 }

/-- `STATUS` after the refusal of an illegal command (60_exceptions R371). -/
def Status.refused (st : Status) : Status :=
  { st with done := true, err := true, errcode := .illegalCommand }

/-- `STATUS.HAZ <- 1` (20_memory R100, R101). -/
def State.setHaz (s : State) : State := s.withStatus { s.csr.status with haz := true }

/-- `STATUS.CMD_OVR <- 1` (60_exceptions R372). -/
def State.setCmdOvr (s : State) : State := s.withStatus { s.csr.status with cmdOvr := true }

/-- The bit of `STATUS.TKERR` of track t (10_state R45). -/
def Track.errBit : Track → BitVec 3
  | .t1 => 1
  | .t2 => 2
  | .t3 => 4

/-- `R(STATUS).TKERR[t-1] <- 1` (43_serial_protocol R276). -/
def State.setTkerr (s : State) (t : Track) : State :=
  s.withStatus { s.csr.status with tkerr := s.csr.status.tkerr ||| t.errBit }

/-- `R(STATUS).LASTSTAT <- b` (43_serial_protocol R271). -/
def State.setLaststat (s : State) (b : Byte) : State := s.withStatus { s.csr.status with laststat := b }

/-- `R(STATUS).ATTEMPTS <- sat_8(a)` (44_retry R341, R342). -/
def State.setAttempts (s : State) (a : Nat) : State :=
  s.withStatus { s.csr.status with attempts := saturate 8 a }

/-- The interrupt output, `CTRL.IRQ_EN and STATUS.DONE` (60_exceptions R376). -/
def State.irq (s : State) : Bool := s.csr.ctrl.irqEn && s.csr.status.done

end Sys2Proof.Machine
end

