-- ==== Sys2Proof/Machine/Operands.lean ====
section
/-! DEFINITION. Where an operation's operands come from: the fields of the command word, the operand registers, and the
cells of the memories below their length registers; and the bounds that make operands legal (60_exceptions R371). -/
namespace Sys2Proof.Machine

/-! ### The bytes of the wire protocol (30_encoding R128) -/

/-- ESC. -/
def escByte : Byte := 0x1B#8
/-- START, `'s'`. -/
def startByte : Byte := 0x73#8
/-- END, `'?'`. -/
def endByte : Byte := 0x3F#8
/-- FS, the field separator. -/
def fsByte : Byte := 0x1C#8
/-- The OK status byte. -/
def okByte : Byte := 0x30#8

/-! ### Fields of the command word -/

/-- 30_encoding R122: the track a TRK field selects; 0 selects none. -/
def selectTrack (trk : BitVec 2) : Option Track :=
  match trk.toNat with
  | 1 => some .t1
  | 2 => some .t2
  | 3 => some .t3
  | _ => none

/-- The number of a track as a byte on the wire, 0x01, 0x02 or 0x03 (30_encoding R131). -/
def Track.wireNumber : Track → Byte
  | .t1 => 0x01#8
  | .t2 => 0x02#8
  | .t3 => 0x03#8

/-- The track after t, in the order 1, 2, 3 (43_serial_protocol R278). -/
def Track.following : Track → Option Track
  | .t1 => some .t2
  | .t2 => some .t3
  | .t3 => none

/-! ### Operand registers -/

/-- Payload byte k of DEV.XCMD: byte `k mod 4` of `XPAY(k div 4)` (10_state R58). -/
def State.payloadByte (s : State) (k : Nat) : Byte :=
  byteOfWord (if k / 4 = 0 then s.csr.xpay0 else s.csr.xpay1) k

/-- The stored length of track t, `R(TK_LENt)[7:0]` (10_state R59). -/
def State.trackLen (s : State) (t : Track) : Nat := (s.tk t).len.toNat

/-! ### Memory operands -/

/-- The bytes `TRK[t][0..L-1]` with `L = TK_LENt`. -/
def State.trackBytes (s : State) (t : Track) : List Byte := (List.range (s.trackLen t)).map (s.trk t)

/-- The bitstring `BS[0..BSLEN-1]`. -/
def State.bitstring (s : State) : List Bool := (List.range s.csr.bslen.toNat).map s.bs

/-- The samples `SMP[0..NSAMP-1]`. -/
def State.samples (s : State) : List (BitVec 16) := (List.range s.csr.nsamp.toNat).map s.smp

/-- The intervals `IVL[0..NINT-1]`, as numbers. -/
def State.intervals (s : State) : List Nat := (List.range s.csr.nint.toNat).map fun k => (s.ivl k).toNat

/-! ### Legality at acceptance (60_exceptions R371) -/

/-- `NSAMP <= P_NS_MAX`. -/
def State.samplesLegal (s : State) : Bool := decide (s.csr.nsamp.toNat ≤ s.params.nsMax)

/-- `NINT <= P_NI_MAX`, and `1 <= IVL[k] <= 0x7FFF_FFFF` for every `k < NINT` (41_demodulator R211). -/
def State.intervalsLegal (s : State) : Bool :=
  decide (s.csr.nint.toNat ≤ s.params.niMax) && s.intervals.all fun x => decide (1 ≤ x ∧ x ≤ 0x7FFFFFFF)

/-- `BSLEN <= P_BS_MAX`. -/
def State.bitstringLegal (s : State) : Bool := decide (s.csr.bslen.toNat ≤ s.params.bsMax)

/-- `XCTL.XTXLEN <= 8`. -/
def State.payloadLegal (s : State) : Bool := decide (s.csr.xtxlen.toNat ≤ 8)

/-- The bounds of 60_exceptions R371 on the operand registers and memories of an operation. A register not named for an
operation is not checked. -/
def operandsLegal (i : Instr) (s : State) : Bool :=
  match i with
  | .rectify => s.samplesLegal
  | .peakfind => s.samplesLegal
  | .demod => s.samplesLegal
  | .extract => s.intervalsLegal
  | .revbits => s.bitstringLegal
  | .decodeAba => s.bitstringLegal
  | .decodeIata => s.bitstringLegal
  | .devXcmd _ => s.payloadLegal
  | .nop | .getbit _ | .setbit _ | .revbyte | .revtrack _ | .unpack _ => true
  | .devReset | .devCommtest | .devReadiso _ | .devReadraw _ | .devWriteiso | .devWriteraw | .devErase _
  | .devModel | .devFirmware | .devLzquery => true
  | .wireRead | .wireWrite | .wireRawread | .wireRawwrite | .wireCommdiag | .wireSensordiag | .wireRamdiag
  | .wireModel | .wireFirmware | .wireErase | .wireSetbpi | .wireSetbpc | .wireReset | .wireLed81 | .wireLed82
  | .wireLed83 | .wireLed84 | .wireLed85 | .wireCoercivityhi | .wireCoercivitylo | .wireLzquery => true

/-- `illegal(v)` of 60_exceptions R371, denied: the word decodes, its fields are legal and its operands are in bounds. -/
def commandLegal (v : Word) (s : State) : Bool :=
  match decodeCommand v with
  | .ok i => i.wellFormed && operandsLegal i s
  | .error _ => false

/-- The operations of 43_serial_protocol, which are transactions (60_exceptions R370: "OPC names a DEV.* operation"). -/
def isTransaction : Instr → Bool
  | .devReset | .devCommtest | .devReadiso _ | .devReadraw _ | .devWriteiso | .devWriteraw | .devErase _
  | .devModel | .devFirmware | .devLzquery | .devXcmd _ => true
  | .nop | .getbit _ | .setbit _ | .revbyte | .revtrack _ | .unpack _ | .revbits | .rectify | .peakfind
  | .extract | .demod | .decodeAba | .decodeIata => false
  | .wireRead | .wireWrite | .wireRawread | .wireRawwrite | .wireCommdiag | .wireSensordiag | .wireRamdiag
  | .wireModel | .wireFirmware | .wireErase | .wireSetbpi | .wireSetbpc | .wireReset | .wireLed81 | .wireLed82
  | .wireLed83 | .wireLed84 | .wireLed85 | .wireCoercivityhi | .wireCoercivitylo | .wireLzquery => false

/-- Whether a command word names a transaction. -/
def namesTransaction (v : Word) : Bool :=
  match decodeCommand v with
  | .ok i => isTransaction i
  | .error _ => false

end Sys2Proof.Machine
end

