-- ==== Sys2Proof/Machine/BitBuffer.lean ====
section
/-! DEFINITION. The BitBuffer primitives (40_bitbuffer). -/
namespace Sys2Proof.Machine

/-- A compute operation on the track its TRK field selects; TRK 0 is illegal (30_encoding R122). -/
def State.performOnTrack (s : State) (trk : BitVec 2) (body : Track → State → State × ErrCode) : State :=
  match selectTrack trk with
  | some t => s.performIf true (body t)
  | none => s.completeWith .illegalCommand

/-- The body of GETBIT (40_bitbuffer R163). -/
def getbitBody (t : Track) (s : State) : State × ErrCode :=
  let i := s.csr.bitidx.toNat
  if i ≥ 8 * s.trackLen t then (s, .rangeError)
  else (s.withCsr { s.csr with bitval := bitMsbFirst (s.trk t (i / 8)) i }, .none)

/-- The body of SETBIT (40_bitbuffer R164). -/
def setbitBody (t : Track) (s : State) : State × ErrCode :=
  let i := s.csr.bitidx.toNat
  if i ≥ 8 * s.trackLen t then (s, .rangeError)
  else (s.writeTrk t (i / 8) [setBitMsbFirst (s.trk t (i / 8)) i s.csr.bitval], .none)

/-- The body of REVBYTE (40_bitbuffer R165). -/
def revbyteBody (s : State) : State × ErrCode := (s.withCsr { s.csr with byteOut := rev8 s.csr.byteIn }, .none)

/-- The body of REVTRACK (40_bitbuffer R162, R166). -/
def revtrackBody (t : Track) (s : State) : State × ErrCode :=
  (s.writeTrk t 0 ((s.trackBytes t).reverse.map rev8), .none)

/-- The body of UNPACK (40_bitbuffer R160, R167). -/
def unpackBody (t : Track) (s : State) : State × ErrCode :=
  let bits := (s.trackBytes t).flatMap bitsOfByte
  ((s.writeBs bits).withCsr { s.csr with bslen := BitVec.ofNat 32 (8 * s.trackLen t) }, .none)

/-- The body of REVBITS (40_bitbuffer R168). -/
def revbitsBody (s : State) : State × ErrCode := (s.writeBs s.bitstring.reverse, .none)

/-- 40_bitbuffer R163. -/
def execGetbit (trk : BitVec 2) (s : State) : Host.Outcome State Fault Refusal :=
  .next (s.performOnTrack trk getbitBody)

/-- 40_bitbuffer R164. -/
def execSetbit (trk : BitVec 2) (s : State) : Host.Outcome State Fault Refusal :=
  .next (s.performOnTrack trk setbitBody)

/-- 40_bitbuffer R165. -/
def execRevbyte (s : State) : Host.Outcome State Fault Refusal := .next (s.performIf true revbyteBody)

/-- 40_bitbuffer R166. -/
def execRevtrack (trk : BitVec 2) (s : State) : Host.Outcome State Fault Refusal :=
  .next (s.performOnTrack trk revtrackBody)

/-- 40_bitbuffer R167. -/
def execUnpack (trk : BitVec 2) (s : State) : Host.Outcome State Fault Refusal :=
  .next (s.performOnTrack trk unpackBody)

/-- 40_bitbuffer R168. -/
def execRevbits (s : State) : Host.Outcome State Fault Refusal := .next (s.performIf s.bitstringLegal revbitsBody)

end Sys2Proof.Machine
end

