-- ==== Sys2Proof/Machine/Control.lean ====
section
/-! DEFINITION. The control operation, NOP (45_control). -/
namespace Sys2Proof.Machine

/-- 45_control R350: complete, and nothing else. -/
def execNop (s : State) : Host.Outcome State Fault Refusal := .next (s.performIf true fun s => (s, .none))

end Sys2Proof.Machine
end

