-- ==== Sys2Proof/Machine/Demodulator.lean ====
section
/-! DEFINITION. The BiphaseDemodulator (41_demodulator): rectification, peak detection and symbol extraction with the
adaptive reference `zerobl`. -/
namespace Sys2Proof.Machine

/-! ### Peak detection -/

/-- The peaks of a sample stream (41_demodulator R200 to R203), over the magnitudes from index `i` on. `best` is the
peak so far of the run that reaches `i`, its index and magnitude, or nothing outside a run. -/
def peaksFrom (silence : Nat) : Nat → Option (Nat × Nat) → List Nat → List Nat
  | _, none, [] => []
  | _, some best, [] => [best.1]
  | i, none, m :: ms =>
    if m ≤ silence then peaksFrom silence (i + 1) none ms else peaksFrom silence (i + 1) (some (i, m)) ms
  | i, some best, m :: ms =>
    if m ≤ silence then best.1 :: peaksFrom silence (i + 1) none ms
    else peaksFrom silence (i + 1) (some (if m > best.2 then (i, m) else best)) ms

/-- The distances between successive peaks, the non-positive ones dropped (41_demodulator R203). -/
def intervalsOf (peaks : List Nat) : List Nat :=
  (List.zipWith (fun next prev => next - prev) peaks.tail peaks).filter fun d => decide (d > 0)

/-! ### Symbol extraction -/

/-- `100 * dist < t * z`, or `<=` when the windows are closed (41_demodulator R213, `P_WINDOW_CLOSED`). -/
def withinWindow (closed : Bool) (t z dist : Nat) : Bool :=
  if closed then decide (100 * dist ≤ t * z) else decide (100 * dist < t * z)

/-- `half(x, z)`: x lies within ±t% of `z/2` (41_demodulator R213). -/
def inHalfWindow (closed : Bool) (t x z : Nat) : Bool := withinWindow closed t z (2 * (x : Int) - z).natAbs

/-- `full(x, z)`: x lies within ±t% of `z` (41_demodulator R213). -/
def inFullWindow (closed : Bool) (t x z : Nat) : Bool := withinWindow closed t z ((x : Int) - z).natAbs

/-- The extractor loop (41_demodulator R214, R215) over the intervals still to examine: the bits emitted and the final
reference. The final interval is only the partner of a pair, never the first of a test. -/
def extractBits (closed : Bool) (t : Nat) (vcDis : Bool) : Nat → List Nat → List Bool × Nat
  | z, [] => ([], z)
  | z, [_] => ([], z)
  | z, x :: y :: rest =>
    if inHalfWindow closed t x z && inHalfWindow closed t y z then
      let r := extractBits closed t vcDis (2 * x) rest
      (true :: r.1, r.2)
    else if inFullWindow closed t x z then
      let r := extractBits closed t vcDis (if vcDis then z else x) (y :: rest)
      (false :: r.1, r.2)
    else extractBits closed t vcDis z (y :: rest)

/-! ### The bodies -/

/-- The body of RECTIFY (41_demodulator R192). -/
def rectifyBody (s : State) : State := s.writeSmp (s.samples.map (rectified s.params.sampleW))

/-- The body of PEAKFIND (41_demodulator R203). -/
def peakfindBody (s : State) : State :=
  let peaks := peaksFrom s.csr.silThres.toNat 0 none (s.samples.map (mag s.params.sampleW))
  let ivls := intervalsOf peaks
  (s.writeIvl (ivls.map (BitVec.ofNat 32))).withCsr
    { s.csr with npeak := BitVec.ofNat 32 peaks.length, nint := BitVec.ofNat 32 ivls.length }

/-- The body of EXTRACT (41_demodulator R212, R214, R216). -/
def extractBody (s : State) : State × ErrCode :=
  let ivls := s.intervals
  if ivls.length < 2 then (s.withCsr { s.csr with bslen := 0 }, .noDataError)
  else if ivls.length = 2 then (s.withCsr { s.csr with bslen := 0 }, .none)
  else
    let r := extractBits s.params.windowClosed s.csr.freqThres.toNat s.csr.ctrl.vcDis
      (ivls.getD 2 0) (ivls.drop s.params.first)
    ((s.writeBs r.1).withCsr
      { s.csr with bslen := BitVec.ofNat 32 r.1.length, zerobl := BitVec.ofNat 32 r.2 }, .none)

/-- 41_demodulator R192. -/
def execRectify (s : State) : Host.Outcome State Fault Refusal :=
  .next (s.performIf s.samplesLegal fun s => (rectifyBody s, .none))

/-- 41_demodulator R203. -/
def execPeakfind (s : State) : Host.Outcome State Fault Refusal :=
  .next (s.performIf s.samplesLegal fun s => (peakfindBody s, .none))

/-- 41_demodulator R214. -/
def execExtract (s : State) : Host.Outcome State Fault Refusal := .next (s.performIf s.intervalsLegal extractBody)

/-- 41_demodulator R218: the bodies of RECTIFY, PEAKFIND and EXTRACT in order, in one step. -/
def execDemod (s : State) : Host.Outcome State Fault Refusal :=
  .next (s.performIf s.samplesLegal fun s => extractBody (peakfindBody (rectifyBody s)))

end Sys2Proof.Machine
end

