-- ==== Sys2Proof/Machine/Transaction.lean ====
section
/-! DEFINITION. How a transaction moves (43_serial_protocol, 60_exceptions R381 to R384): one block step takes the
sequencer from the position it is blocked at, with the event that position waits for, to the next position or to
completion (10_state R60, log entry 8). Each operation gives what follows its own positions. -/
namespace Sys2Proof.Machine

/-- The byte a `Send` position offers to the transport; 0 where the position sends nothing. Operands are read at the
position itself: nothing can change them while BUSY (20_memory R100, log entry 23). -/
def State.offered (s : State) : Point → Byte
  | .frame w .esc => w.first
  | .frame w .code => w.second
  | .eraseMask mask => mask
  | .writeStart => startByte
  | .writeEsc _ => escByte
  | .writeNum t => t.wireNumber
  | .writeLen t => (s.tk t).len
  | .writeData t j => s.trk t j
  | .writeEnd => endByte
  | .writeFs => fsByte
  | .payload k => s.payloadByte k
  | .start | .settle _ | .commtest | .scan _ | .headerEsc _ | .headerNum _ | .trackData _ | .reply _ => 0

/-- The transport takes a byte: it is sent (60_exceptions R381). -/
def State.sendByte (s : State) (b : Byte) : State := { s with sent := s.sent ++ [b] }

/-- `SendCmd(code)`: offer ESC, then the code (43_serial_protocol R270). -/
def State.sendCmd (s : State) (code : Byte) : State := s.moveTo (.frame (commandFrame code) .esc)

/-- `SettleWait()`, and what follows it: with no tick to wait for it ends at once (60_exceptions R384,
43_serial_protocol R272). -/
def State.settleWait (s : State) (after : State → State) : State :=
  if s.params.settleTicks = 0 then after s else s.moveTo (.settle s.params.settleTicks)

/-- One event at a position of `SendCmd`. After the code, the pseudocode goes on with `after`. -/
def frameStep (w : FrameWord) (b : FrameByte) (after : State → State) (s : State) : State :=
  match s.event with
  | some .take =>
    match b with
    | .esc => (s.sendByte w.first).moveTo (.frame w .code)
    | .code => after (s.sendByte w.second)
  | some .error => s.completeWith .transportError
  | _ => s

/-- One block step of a transaction at its position (60_exceptions R381 to R384): at the start, `begins`; at a position
of `SendCmd`, the frame, followed by `afterFrame`; when another byte is taken, `sent`; when a byte is delivered,
`received`; after the last tick, `settled`. A transport error ends the transaction (43_serial_protocol R302). An event the
position does not wait for changes nothing (60_exceptions R382, R383, log entry 22). -/
def transactionStep (begins : State → State) (afterFrame : FrameWord → State → State) (sent : Point → State → State)
    (received : Point → Byte → State → State) (settled : State → State) (s : State) : State :=
  match s.seq with
  | .idle => s
  | .run _ => s
  | .txn _ p _ =>
    match p with
    | .frame w b => frameStep w b (afterFrame w) s
    | p =>
      match p.waiting, s.event with
      | .nothing, none => begins s
      | .nothing, some .block => begins s
      | .send, some .take => sent p (s.sendByte (s.offered p))
      | .send, some .error => s.completeWith .transportError
      | .recv, some .deliver =>
        match s.rx with
        | [] => s
        | b :: rest => received p b { s with rx := rest }
      | .recv, some .error => s.completeWith .transportError
      | .ticks left, some .tick => if left ≤ 1 then settled s else s.moveTo (.settle (left - 1))
      | _, _ => s

/-- What follows a position the operation does not have: nothing. No run reaches it. -/
def noPosition (_ : Point) (s : State) : State := s

/-- What follows a received byte at a position the operation does not have: nothing. No run reaches it. -/
def noReceive (_ : Point) (_ : Byte) (s : State) : State := s

/-- `for k in 1 .. n: b <- Recv(); append b`, from its first `Recv`; with `n = 0` nothing is received and `after` runs
(43_serial_protocol R298, R300). -/
def State.receiveReply (s : State) (n : Nat) (after : State → State) : State :=
  if n = 0 then after s else s.moveTo (.reply n)

/-- A byte of a fixed-size response: append it, and after the last one go on with `finish` (10_state R47). -/
def replyReceived (finish : Byte → State → State) (p : Point) (b : Byte) (s : State) : State :=
  match p with
  | .reply left =>
    let s := s.appendReply b
    if left ≤ 1 then finish b s else s.moveTo (.reply (left - 1))
  | _ => s

/-- `CheckStatus(b); complete` (43_serial_protocol R271). -/
def checkStatusAndComplete (b : Byte) (s : State) : State :=
  (s.setLaststat b).completeWith (if b = okByte then .none else .deviceStatusError)

end Sys2Proof.Machine
end

