-- ==== Sys2Proof/Machine/ReadRetry.lean ====
section
/-! DEFINITION. The read transactions (43_serial_protocol R274 to R286) and the RetryWrapper around them (44_retry). -/
namespace Sys2Proof.Machine

/-- The start of a read attempt: every track empty, no track error, no response (43_serial_protocol R276). -/
def State.clearForRead (s : State) : State :=
  let c := s.csr
  let s := s.withCsr { c with
    tk1 := { c.tk1 with len := 0, wire := 0 }
    tk2 := { c.tk2 with len := 0, wire := 0 }
    tk3 := { c.tk3 with len := 0, wire := 0 }
    status := { c.status with tkerr := 0 } }
  s.clearReply

/-- `ReadAttempt(code)` up to its command frame (43_serial_protocol R276). -/
def readAttempt (code : Byte) (s : State) : State := s.clearForRead.sendCmd code

/-- The next attempt of the retry loop up to the frame of its device reset (44_retry R341, R342). -/
def retryAttempt (s : State) : State :=
  let a := s.locals.attempts + 1
  ((s.setLocals { s.locals with attempts := a }).setAttempts a).sendCmd 0x61#8

/-- The start of a read: one attempt, or the retry loop with `m <- R(CTRL).MAX_ATT` (43_serial_protocol R274, R275,
44_retry R342). -/
def readBegins (rty : Bool) (code : Byte) (s : State) : State :=
  if rty then retryAttempt (s.setLocals { attempts := 0, maxAtt := s.csr.ctrl.maxAtt }) else readAttempt code s

/-- The end of an attempt with code `e` (44_retry R342, R343): without retry, the end of the operation; with retry,
success and the last allowed attempt end it, any other attempt is followed by the next. -/
def endAttempt (rty : Bool) (e : ErrCode) (s : State) : State :=
  if rty && decide (e ≠ .none) then
    let l := s.locals
    if l.maxAtt ≠ 0 ∧ l.attempts ≥ l.maxAtt.toNat then s.completeWith e else retryAttempt s
  else s.completeWith e

/-- The first `Recv` of the START scan (43_serial_protocol R276, R277). -/
def startScan (rty : Bool) (s : State) : State :=
  if s.params.startScan = 0 then endAttempt rty .framingError s else s.moveTo (.scan 0)

/-- What follows a command frame of a read: the settle wait after the device reset of an attempt, the START scan after
the read command. -/
def readAfterFrame (rty : Bool) (code : Byte) (w : FrameWord) (s : State) : State :=
  if rty && w == commandFrame 0x61#8 then s.settleWait (readAttempt code) else startScan rty s

/-- `TrackError(t)`: `TK_LENt <- 0`, the track's TKERR bit 1 (43_serial_protocol R276, R283). -/
def State.trackError (s : State) (t : Track) : State := (s.setTk t { s.tk t with len := 0 }).setTkerr t

/-- The trailer, `P_READ_TRAILER_LEN` bytes (43_serial_protocol R284). -/
def readTrailer (rty : Bool) (s : State) : State :=
  s.receiveReply s.params.readTrailerLen (endAttempt rty .none)

/-- The header of the track after t, its ESC already received when `carry` (43_serial_protocol R278), or the trailer. -/
def nextTrack (rty : Bool) (t : Track) (carry : Bool) (s : State) : State :=
  match t.following with
  | some u => if carry then s.moveTo (.headerNum u) else s.moveTo (.headerEsc u)
  | none => readTrailer rty s

/-- A data byte of track t: counted in `P_WIRE_W` bits, and stored while the track has room (43_serial_protocol R276, R280). -/
def State.storeTrackByte (s : State) (t : Track) (b : Byte) : State :=
  let r := s.tk t
  let counted := { r with wire := (saturate s.params.wireW (r.wire.toNat + 1)).setWidth 16 }
  if r.len < r.cap then (s.writeTrk t r.len.toNat [b]).setTk t { counted with len := r.len + 1 }
  else s.setTk t counted

/-- The result of a read attempt, after its last trailer byte (43_serial_protocol R271, R285). -/
def readFinish (rty : Bool) (b : Byte) (s : State) : State :=
  let s := s.setLaststat b
  if b ≠ okByte then endAttempt rty .deviceStatusError s
  else if s.csr.status.tkerr ≠ 0 then endAttempt rty .framingError s
  else endAttempt rty .none s

/-- What follows each byte of a read response (43_serial_protocol R276). -/
def readReceived (rty : Bool) (p : Point) (b : Byte) (s : State) : State :=
  match p with
  | .scan examined =>
    if b = startByte then s.moveTo (.headerEsc .t1)
    else if examined + 1 < s.params.startScan then s.moveTo (.scan (examined + 1))
    else endAttempt rty .framingError s
  | .headerEsc t => if b = escByte then s.moveTo (.headerNum t) else nextTrack rty t false (s.trackError t)
  | .headerNum t => if b = t.wireNumber then s.moveTo (.trackData t) else nextTrack rty t false (s.trackError t)
  | .trackData t =>
    if b = endByte then nextTrack rty t false s
    else if s.params.errDelims.contains b then nextTrack rty t (b == escByte) (s.trackError t)
    else (s.storeTrackByte t b).moveTo (.trackData t)
  | .reply left => replyReceived (readFinish rty) (.reply left) b s
  | _ => s

/-- 43_serial_protocol R274, 44_retry R340. -/
def execDevReadiso (rty : Bool) (s : State) : Host.Outcome State Fault Refusal :=
  .next (transactionStep (readBegins rty 0x72#8) (readAfterFrame rty 0x72#8) noPosition (readReceived rty)
    (readAttempt 0x72#8) (s.inTransaction (commandWord 0 rty 0 0x32)))

/-- 43_serial_protocol R275, 44_retry R340. -/
def execDevReadraw (rty : Bool) (s : State) : Host.Outcome State Fault Refusal :=
  .next (transactionStep (readBegins rty 0x6D#8) (readAfterFrame rty 0x6D#8) noPosition (readReceived rty)
    (readAttempt 0x6D#8) (s.inTransaction (commandWord 0 rty 0 0x33)))

end Sys2Proof.Machine
end

