-- ==== Sys2Proof/Machine/Serial.lean ====
section
/-! DEFINITION. The transactions without a retry (43_serial_protocol): device reset, communication test, writes, erase,
queries and the generic command. The meaning of each is its block step (`transactionStep`) with what its own pseudocode
does at the start, after the command frame, after each further byte sent, after each byte received and after the settle
wait. -/
namespace Sys2Proof.Machine

/-! ### DEV.RESET (43_serial_protocol R272) -/

/-- `SendCmd(0x61)`. -/
def resetBegins (s : State) : State := s.sendCmd 0x61#8

/-- `SettleWait(); complete`. -/
def resetAfterFrame (_ : FrameWord) (s : State) : State := s.settleWait fun s => s.completeWith .none

/-- 43_serial_protocol R272. -/
def execDevReset (s : State) : Host.Outcome State Fault Refusal :=
  .next (transactionStep resetBegins resetAfterFrame noPosition noReceive (fun s => s.completeWith .none)
    (s.inTransaction (commandWord 0 false 0 0x30)))

/-! ### DEV.COMMTEST (43_serial_protocol R273) -/

/-- `SendCmd(0x65)`. -/
def commtestBegins (s : State) : State := s.sendCmd 0x65#8

/-- The first `Recv` of the loop. -/
def commtestAfterFrame (_ : FrameWord) (s : State) : State := s.moveTo .commtest

/-- The byte `P_COMMTEST_OK` completes; any other is discarded. -/
def commtestReceived (p : Point) (b : Byte) (s : State) : State :=
  match p with
  | .commtest => if b = s.params.commtestOk then s.completeWith .none else s.moveTo .commtest
  | _ => s

/-- 43_serial_protocol R273. -/
def execDevCommtest (s : State) : Host.Outcome State Fault Refusal :=
  .next (transactionStep commtestBegins commtestAfterFrame noPosition commtestReceived id
    (s.inTransaction (commandWord 0 false 0 0x31)))

/-! ### Writes (43_serial_protocol R290 to R293) -/

/-- `R(RESPLEN) <- 0; SendCmd(code)`. -/
def writeBegins (code : Byte) (s : State) : State := s.clearReply.sendCmd code

/-- `Send(START)`. -/
def writeAfterFrame (_ : FrameWord) (s : State) : State := s.moveTo .writeStart

/-- The end of track t: the header of the next track, or `Send(END)`. -/
def writeNextTrack (t : Track) (s : State) : State :=
  match t.following with
  | some u => s.moveTo (.writeEsc u)
  | none => s.moveTo .writeEnd

/-- `for j in 0 .. L-1: Send(TRK[t][j])`, from byte j on, with `L = TK_LENt`. -/
def writeTrackFrom (t : Track) (j : Nat) (s : State) : State :=
  if j < s.trackLen t then s.moveTo (.writeData t j) else writeNextTrack t s

/-- What follows each byte of a write frame. -/
def writeSent (raw : Bool) (p : Point) (s : State) : State :=
  match p with
  | .writeStart => s.moveTo (.writeEsc .t1)
  | .writeEsc t => s.moveTo (.writeNum t)
  | .writeNum t => if raw then s.moveTo (.writeLen t) else writeTrackFrom t 0 s
  | .writeLen t => writeTrackFrom t 0 s
  | .writeData t j => writeTrackFrom t (j + 1) s
  | .writeEnd => s.moveTo .writeFs
  | .writeFs => s.receiveReply s.params.wconfLen fun s => s.completeWith .none
  | _ => s

/-- 43_serial_protocol R290: `WriteTxn(0x77, raw = false)`. -/
def execDevWriteiso (s : State) : Host.Outcome State Fault Refusal :=
  .next (transactionStep (writeBegins 0x77#8) writeAfterFrame (writeSent false)
    (replyReceived checkStatusAndComplete) id (s.inTransaction (commandWord 0 false 0 0x34)))

/-- 43_serial_protocol R291: `WriteTxn(0x6E, raw = true)`. -/
def execDevWriteraw (s : State) : Host.Outcome State Fault Refusal :=
  .next (transactionStep (writeBegins 0x6E#8) writeAfterFrame (writeSent true)
    (replyReceived checkStatusAndComplete) id (s.inTransaction (commandWord 0 false 0 0x35)))

/-! ### DEV.ERASE (43_serial_protocol R294) -/

/-- `R(RESPLEN) <- 0; SendCmd(0x63)`. -/
def eraseBegins (s : State) : State := s.clearReply.sendCmd 0x63#8

/-- `Send(CMD.ARG)`. -/
def eraseAfterFrame (mask : Byte) (_ : FrameWord) (s : State) : State := s.moveTo (.eraseMask mask)

/-- The `P_ERASE_LEN` bytes of the status. -/
def eraseSent (p : Point) (s : State) : State :=
  match p with
  | .eraseMask _ => s.receiveReply s.params.eraseLen fun s => s.completeWith .none
  | _ => s

/-- 43_serial_protocol R294. -/
def execDevErase (mask : Byte) (s : State) : Host.Outcome State Fault Refusal :=
  .next (transactionStep eraseBegins (eraseAfterFrame mask) eraseSent (replyReceived checkStatusAndComplete) id
    (s.inTransaction (commandWord mask false 0 0x36)))

/-! ### Queries (43_serial_protocol R295 to R298) -/

/-- `FixedQuery(code, n)` up to its command frame: `R(RESPLEN) <- 0; SendCmd(code)` (43_serial_protocol R298). -/
def queryBegins (code : Byte) (s : State) : State := s.clearReply.sendCmd code

/-- The checks of DEV.MODEL on its response. -/
def modelFinish (_ : Byte) (s : State) : State :=
  if s.respByte 0 ≠ escByte then s.completeWith .framingError
  else if s.params.modelSet.contains (s.respByte 1) then s.completeWith .none
  else s.completeWith .framingError

/-- The check of DEV.FIRMWARE and DEV.LZQUERY on its response. -/
def escapeFinish (_ : Byte) (s : State) : State :=
  if s.respByte 0 ≠ escByte then s.completeWith .framingError else s.completeWith .none

/-- The `P_MODEL_LEN` bytes of the response. -/
def modelAfterFrame (_ : FrameWord) (s : State) : State :=
  s.receiveReply s.params.modelLen fun s => s.completeWith .none

/-- The `P_FW_LEN` bytes of the response. -/
def firmwareAfterFrame (_ : FrameWord) (s : State) : State :=
  s.receiveReply s.params.fwLen fun s => s.completeWith .none

/-- The `P_LZ_LEN` bytes of the response. -/
def lzqueryAfterFrame (_ : FrameWord) (s : State) : State :=
  s.receiveReply s.params.lzLen fun s => s.completeWith .none

/-- 43_serial_protocol R295. -/
def execDevModel (s : State) : Host.Outcome State Fault Refusal :=
  .next (transactionStep (queryBegins 0x74#8) modelAfterFrame noPosition (replyReceived modelFinish) id
    (s.inTransaction (commandWord 0 false 0 0x37)))

/-- 43_serial_protocol R296. -/
def execDevFirmware (s : State) : Host.Outcome State Fault Refusal :=
  .next (transactionStep (queryBegins 0x76#8) firmwareAfterFrame noPosition (replyReceived escapeFinish) id
    (s.inTransaction (commandWord 0 false 0 0x38)))

/-- 43_serial_protocol R297, with the command code `P_LZ_CMD`. -/
def execDevLzquery (s : State) : Host.Outcome State Fault Refusal :=
  .next (transactionStep (queryBegins s.params.lzCmd) lzqueryAfterFrame noPosition (replyReceived escapeFinish) id
    (s.inTransaction (commandWord 0 false 0 0x39)))

/-! ### DEV.XCMD (43_serial_protocol R300) -/

/-- `R(RESPLEN) <- 0; SendCmd(CMD.ARG)`. Acceptance has refused `XTXLEN > 8` (60_exceptions R371); no run reaches the
refusal here (log entry 11). -/
def xcmdBegins (code : Byte) (s : State) : State :=
  if s.payloadLegal then s.clearReply.sendCmd code else s.completeWith .illegalCommand

/-- The `XRXLEN` bytes of the response, none when `XRXLEN = 0`. -/
def xcmdReceive (s : State) : State := s.receiveReply s.csr.xrxlen.toNat fun s => s.completeWith .none

/-- `for k in 0 .. XTXLEN-1: Send(XPAY[k])`, from byte k on. -/
def xcmdPayloadFrom (k : Nat) (s : State) : State :=
  if k < s.csr.xtxlen.toNat then s.moveTo (.payload k) else xcmdReceive s

/-- What follows the command frame. -/
def xcmdAfterFrame (_ : FrameWord) (s : State) : State := xcmdPayloadFrom 0 s

/-- What follows a payload byte. -/
def xcmdSent (p : Point) (s : State) : State :=
  match p with
  | .payload k => xcmdPayloadFrom (k + 1) s
  | _ => s

/-- `if XCHK = 1 and XRXLEN >= 1: CheckStatus(b)`; complete. -/
def xcmdFinish (b : Byte) (s : State) : State :=
  if s.csr.xchk then checkStatusAndComplete b s else s.completeWith .none

/-- 43_serial_protocol R300. -/
def execDevXcmd (code : Byte) (s : State) : Host.Outcome State Fault Refusal :=
  .next (transactionStep (xcmdBegins code) xcmdAfterFrame xcmdSent (replyReceived xcmdFinish) id
    (s.inTransaction (commandWord code false 0 0x3A)))

end Sys2Proof.Machine
end

