-- ==== Sys2Proof/Machine/TrackDecoder.lean ====
section
/-! DEFINITION. The TrackCharDecoder (42_track_decoder): framing, parity and LRC validation of a bitstring under ABA or
IATA. -/
namespace Sys2Proof.Machine

/-- A framing's parameters (42_track_decoder R230). -/
structure Framing where
  /-- W, the character width. -/
  width : Nat
  /-- BASE, the ASCII base offset. -/
  base : Nat
  /-- SSCH, the start sentinel character. -/
  startChar : Byte
  /-- ESCH, the end sentinel character. -/
  endChar : Byte
  /-- SS, the start sentinel bits. -/
  startBits : List Bool
  /-- ES, the end sentinel bits. -/
  endBits : List Bool
  deriving DecidableEq, Repr

/-- ABA: W 5, BASE 0x30, `;` is `11010`, `?` is `11111` (42_track_decoder R230, 30_encoding R138). -/
def abaFraming : Framing :=
  { width := 5, base := 0x30, startChar := 0x3B#8, endChar := 0x3F#8
    startBits := [true, true, false, true, false]
    endBits := [true, true, true, true, true] }

/-- IATA: W 7, BASE 0x20, `%` is `1010001`, `?` is `1111100` (42_track_decoder R230, 30_encoding R138). -/
def iataFraming : Framing :=
  { width := 7, base := 0x20, startChar := 0x25#8, endChar := 0x3F#8
    startBits := [true, false, true, false, false, false, true]
    endBits := [true, true, true, true, true, false, false] }

/-- The lowest position, counted from `k`, that `ok` admits and at which the bitstring matches the pattern
(42_track_decoder R233 to R235). -/
def firstMatch (pattern : List Bool) (ok : Nat → Bool) : Nat → List Bool → Option Nat
  | k, [] => if ok k && pattern.isPrefixOf [] then some k else none
  | k, b :: bs => if ok k && pattern.isPrefixOf (b :: bs) then some k else firstMatch pattern ok (k + 1) bs

/-- The first `n` chunks of `w` symbols of a bitstring (30_encoding R134). -/
def chunksOf (w : Nat) : Nat → List Bool → List (List Bool)
  | 0, _ => []
  | n + 1, bs => bs.take w :: chunksOf w n (bs.drop w)

/-- The output byte of a chunk, `BASE + val(c)` (42_track_decoder R232). -/
def Framing.charOf (f : Framing) (c : List Bool) : Byte :=
  BitVec.ofNat 8 (f.base + valueOfBits (c.take (f.width - 1)))

/-- The chunk loop of 42_track_decoder R237: the data characters and the LRC accumulator, or ParityError at the first
chunk with bad parity. -/
def decodeChunks (f : Framing) : List Bool → List (List Bool) → Except ErrCode (List Byte × List Bool)
  | lrc, [] => .ok ([], lrc)
  | lrc, c :: cs =>
    if oddParity c then
      match decodeChunks f (xorBits lrc c) cs with
      | .ok (chars, l) => .ok (f.charOf c :: chars, l)
      | .error e => .error e
    else .error .parityError

/-- The LRC field the track must hold: the accumulator with the end sentinel's data bits, then its odd-parity bit
(42_track_decoder R240). -/
def Framing.lrcField (f : Framing) (lrc : List Bool) : List Bool :=
  let l := xorBits lrc (f.endBits.take (f.width - 1))
  l ++ [!oddParity l]

/-- `Decode(F, B)` (42_track_decoder R237): the output bytes or the first failure. -/
def decodeTrack (f : Framing) (bits : List Bool) : Except ErrCode (List Byte) :=
  match firstMatch f.startBits (fun _ => true) 0 bits with
  | none => .error .noStartSentinel
  | some s =>
    let d := s + f.width
    match firstMatch f.endBits (fun k => (k - d) % f.width == 0) d (bits.drop d) with
    | none => .error .noEndSentinel
    | some e =>
      match decodeChunks f (f.startBits.take (f.width - 1)) (chunksOf f.width ((e - d) / f.width) (bits.drop d)) with
      | .error err => .error err
      | .ok (chars, lrc) =>
        if e + 2 * f.width > bits.length then .error .checksumError
        else if (bits.drop (e + f.width)).take f.width ≠ f.lrcField lrc then .error .checksumError
        else .ok (f.startChar :: chars ++ [f.endChar])

/-- The body of DECODE.ABA and DECODE.IATA (42_track_decoder R244 to R247). -/
def decodeBody (f : Framing) (s : State) : State × ErrCode :=
  match decodeTrack f s.bitstring with
  | .error e => (s.withCsr { s.csr with declen := 0 }, e)
  | .ok out => ((s.writeDec out).withCsr { s.csr with declen := BitVec.ofNat 32 out.length }, .none)

/-- 42_track_decoder R244. -/
def execDecodeAba (s : State) : Host.Outcome State Fault Refusal :=
  .next (s.performIf s.bitstringLegal (decodeBody abaFraming))

/-- 42_track_decoder R245. -/
def execDecodeIata (s : State) : Host.Outcome State Fault Refusal :=
  .next (s.performIf s.bitstringLegal (decodeBody iataFraming))

end Sys2Proof.Machine
end

