-- ==== Sys2Proof/Machine/Wire.lean ====
section
/-! DEFINITION. The wire command frames (30_encoding R128 to R130), the block's second encoding space (00_scope R3). A
frame `ESC, code` is what the block is executing while a transaction is in the `SendCmd` that emits it (43_serial_protocol
R270); its meaning is one block step of that emission. What the device at the far end does with the frame is not the
block's and not in the spec (log entry 15). -/
namespace Sys2Proof.Machine

/-- What the pseudocode of an operation does after a `SendCmd`; only transactions have one (43_serial_protocol R270). -/
def continueAfterFrame (i : Instr) (w : FrameWord) (s : State) : State :=
  match i with
  | .devReset => resetAfterFrame w s
  | .devCommtest => commtestAfterFrame w s
  | .devReadiso rty => readAfterFrame rty 0x72#8 w s
  | .devReadraw rty => readAfterFrame rty 0x6D#8 w s
  | .devWriteiso => writeAfterFrame w s
  | .devWriteraw => writeAfterFrame w s
  | .devErase mask => eraseAfterFrame mask w s
  | .devModel => modelAfterFrame w s
  | .devFirmware => firmwareAfterFrame w s
  | .devLzquery => lzqueryAfterFrame w s
  | .devXcmd _ => xcmdAfterFrame w s
  | .nop | .getbit _ | .setbit _ | .revbyte | .revtrack _ | .unpack _ | .revbits | .rectify | .peakfind
  | .extract | .demod | .decodeAba | .decodeIata => s
  | .wireRead | .wireWrite | .wireRawread | .wireRawwrite | .wireCommdiag | .wireSensordiag | .wireRamdiag
  | .wireModel | .wireFirmware | .wireErase | .wireSetbpi | .wireSetbpc | .wireReset | .wireLed81 | .wireLed82
  | .wireLed83 | .wireLed84 | .wireLed85 | .wireCoercivityhi | .wireCoercivitylo | .wireLzquery => s

/-- What the running transaction does after its command frame; a command word acceptance admits always decodes. -/
def resumeTransaction (cmd : Word) (w : FrameWord) (s : State) : State :=
  match decodeCommand cmd with
  | .ok i => continueAfterFrame i w s
  | .error _ => s

/-- One block step of the emission of the frame `ESC, code` on the transport port (30_encoding R129, 43_serial_protocol
R270): ESC is taken, then the code, then the transaction goes on. While the port does not hold this frame it changes
nothing (log entry 13). -/
def emitFrame (code : Byte) (s : State) : State :=
  match s.seq with
  | .txn cmd (.frame w b) _ => if w = commandFrame code then frameStep w b (resumeTransaction cmd w) s else s
  | .txn _ _ _ => s
  | .run _ => s
  | .idle => s

/-- WIRE.READ, `1B 72`: read in ISO format (30_encoding R129, 43_serial_protocol R274). -/
def execWireRead (s : State) : Host.Outcome State Fault Refusal := .next (emitFrame 0x72#8 s)

/-- WIRE.WRITE, `1B 77`: write in ISO format (30_encoding R129, 43_serial_protocol R290). -/
def execWireWrite (s : State) : Host.Outcome State Fault Refusal := .next (emitFrame 0x77#8 s)

/-- WIRE.RAWREAD, `1B 6D`: raw read (30_encoding R129, 43_serial_protocol R275). -/
def execWireRawread (s : State) : Host.Outcome State Fault Refusal := .next (emitFrame 0x6D#8 s)

/-- WIRE.RAWWRITE, `1B 6E`: raw write (30_encoding R129, 43_serial_protocol R291). -/
def execWireRawwrite (s : State) : Host.Outcome State Fault Refusal := .next (emitFrame 0x6E#8 s)

/-- WIRE.COMMDIAG, `1B 65`: communication diagnostic (30_encoding R129, 43_serial_protocol R273). -/
def execWireCommdiag (s : State) : Host.Outcome State Fault Refusal := .next (emitFrame 0x65#8 s)

/-- WIRE.SENSORDIAG, `1B 86`: sensor diagnostic (30_encoding R129, 43_serial_protocol R301). -/
def execWireSensordiag (s : State) : Host.Outcome State Fault Refusal := .next (emitFrame 0x86#8 s)

/-- WIRE.RAMDIAG, `1B 87`: RAM diagnostic (30_encoding R129, 43_serial_protocol R301). -/
def execWireRamdiag (s : State) : Host.Outcome State Fault Refusal := .next (emitFrame 0x87#8 s)

/-- WIRE.MODEL, `1B 74`: model query (30_encoding R129, 43_serial_protocol R295). -/
def execWireModel (s : State) : Host.Outcome State Fault Refusal := .next (emitFrame 0x74#8 s)

/-- WIRE.FIRMWARE, `1B 76`: firmware query (30_encoding R129, 43_serial_protocol R296). -/
def execWireFirmware (s : State) : Host.Outcome State Fault Refusal := .next (emitFrame 0x76#8 s)

/-- WIRE.ERASE, `1B 63`: erase; the mask byte that follows is the payload of DEV.ERASE (30_encoding R129, 43_serial_protocol R294). -/
def execWireErase (s : State) : Host.Outcome State Fault Refusal := .next (emitFrame 0x63#8 s)

/-- WIRE.SETBPI, `1B 62`: set BPI; a payload is that of DEV.XCMD (30_encoding R129, 43_serial_protocol R301). -/
def execWireSetbpi (s : State) : Host.Outcome State Fault Refusal := .next (emitFrame 0x62#8 s)

/-- WIRE.SETBPC, `1B 6F`: set BPC; a payload is that of DEV.XCMD (30_encoding R129, 43_serial_protocol R301). -/
def execWireSetbpc (s : State) : Host.Outcome State Fault Refusal := .next (emitFrame 0x6F#8 s)

/-- WIRE.RESET, `1B 61`: device reset (30_encoding R129, 43_serial_protocol R272). -/
def execWireReset (s : State) : Host.Outcome State Fault Refusal := .next (emitFrame 0x61#8 s)

/-- WIRE.LED81, `1B 81`: LED (30_encoding R129, 43_serial_protocol R301). -/
def execWireLed81 (s : State) : Host.Outcome State Fault Refusal := .next (emitFrame 0x81#8 s)

/-- WIRE.LED82, `1B 82`: LED (30_encoding R129, 43_serial_protocol R301). -/
def execWireLed82 (s : State) : Host.Outcome State Fault Refusal := .next (emitFrame 0x82#8 s)

/-- WIRE.LED83, `1B 83`: LED (30_encoding R129, 43_serial_protocol R301). -/
def execWireLed83 (s : State) : Host.Outcome State Fault Refusal := .next (emitFrame 0x83#8 s)

/-- WIRE.LED84, `1B 84`: LED (30_encoding R129, 43_serial_protocol R301). -/
def execWireLed84 (s : State) : Host.Outcome State Fault Refusal := .next (emitFrame 0x84#8 s)

/-- WIRE.LED85, `1B 85`: LED (30_encoding R129, 43_serial_protocol R301). -/
def execWireLed85 (s : State) : Host.Outcome State Fault Refusal := .next (emitFrame 0x85#8 s)

/-- WIRE.COERCIVITYHI, `1B 78`: coercivity high (30_encoding R129, 43_serial_protocol R301). -/
def execWireCoercivityhi (s : State) : Host.Outcome State Fault Refusal := .next (emitFrame 0x78#8 s)

/-- WIRE.COERCIVITYLO, `1B 79`: coercivity low (30_encoding R129, 43_serial_protocol R301). -/
def execWireCoercivitylo (s : State) : Host.Outcome State Fault Refusal := .next (emitFrame 0x79#8 s)

/-- WIRE.LZQUERY, `1B 6C`: leading-zeros query (30_encoding R129, 43_serial_protocol R297). -/
def execWireLzquery (s : State) : Host.Outcome State Fault Refusal := .next (emitFrame 0x6C#8 s)

end Sys2Proof.Machine
end

