-- ==== Sys2Proof/Machine/Dispatch.lean ====
section
/-! DEFINITION. The dispatch of an instruction to its meaning: one block step of that instruction, one arm per
constructor. -/
namespace Sys2Proof.Machine

/-- One block step of instruction `i` (10_state R60). -/
def exec (i : Instr) (s : State) : Host.Outcome State Fault Refusal :=
  match i with
  | .nop => Sys2Proof.Machine.execNop s
  | .getbit trk => Sys2Proof.Machine.execGetbit trk s
  | .setbit trk => Sys2Proof.Machine.execSetbit trk s
  | .revbyte => Sys2Proof.Machine.execRevbyte s
  | .revtrack trk => Sys2Proof.Machine.execRevtrack trk s
  | .unpack trk => Sys2Proof.Machine.execUnpack trk s
  | .revbits => Sys2Proof.Machine.execRevbits s
  | .rectify => Sys2Proof.Machine.execRectify s
  | .peakfind => Sys2Proof.Machine.execPeakfind s
  | .extract => Sys2Proof.Machine.execExtract s
  | .demod => Sys2Proof.Machine.execDemod s
  | .decodeAba => Sys2Proof.Machine.execDecodeAba s
  | .decodeIata => Sys2Proof.Machine.execDecodeIata s
  | .devReset => Sys2Proof.Machine.execDevReset s
  | .devCommtest => Sys2Proof.Machine.execDevCommtest s
  | .devReadiso rty => Sys2Proof.Machine.execDevReadiso rty s
  | .devReadraw rty => Sys2Proof.Machine.execDevReadraw rty s
  | .devWriteiso => Sys2Proof.Machine.execDevWriteiso s
  | .devWriteraw => Sys2Proof.Machine.execDevWriteraw s
  | .devErase mask => Sys2Proof.Machine.execDevErase mask s
  | .devModel => Sys2Proof.Machine.execDevModel s
  | .devFirmware => Sys2Proof.Machine.execDevFirmware s
  | .devLzquery => Sys2Proof.Machine.execDevLzquery s
  | .devXcmd code => Sys2Proof.Machine.execDevXcmd code s
  | .wireRead => Sys2Proof.Machine.execWireRead s
  | .wireWrite => Sys2Proof.Machine.execWireWrite s
  | .wireRawread => Sys2Proof.Machine.execWireRawread s
  | .wireRawwrite => Sys2Proof.Machine.execWireRawwrite s
  | .wireCommdiag => Sys2Proof.Machine.execWireCommdiag s
  | .wireSensordiag => Sys2Proof.Machine.execWireSensordiag s
  | .wireRamdiag => Sys2Proof.Machine.execWireRamdiag s
  | .wireModel => Sys2Proof.Machine.execWireModel s
  | .wireFirmware => Sys2Proof.Machine.execWireFirmware s
  | .wireErase => Sys2Proof.Machine.execWireErase s
  | .wireSetbpi => Sys2Proof.Machine.execWireSetbpi s
  | .wireSetbpc => Sys2Proof.Machine.execWireSetbpc s
  | .wireReset => Sys2Proof.Machine.execWireReset s
  | .wireLed81 => Sys2Proof.Machine.execWireLed81 s
  | .wireLed82 => Sys2Proof.Machine.execWireLed82 s
  | .wireLed83 => Sys2Proof.Machine.execWireLed83 s
  | .wireLed84 => Sys2Proof.Machine.execWireLed84 s
  | .wireLed85 => Sys2Proof.Machine.execWireLed85 s
  | .wireCoercivityhi => Sys2Proof.Machine.execWireCoercivityhi s
  | .wireCoercivitylo => Sys2Proof.Machine.execWireCoercivitylo s
  | .wireLzquery => Sys2Proof.Machine.execWireLzquery s

end Sys2Proof.Machine
end

