-- ==== Sys2Proof/Machine/HostBus.lean ====
section
/-! DEFINITION. The host's side: the address map and bus accesses (20_memory R90 to R101), the register file as the host
reads and writes it (10_state R30 to R59), acceptance and refusal of a command word (60_exceptions R370 to R372) and the
soft reset (70_reset R402). -/
namespace Sys2Proof.Machine

/-! ### The address map (20_memory R92) -/

/-- The windows of the host address space. -/
inductive Window where
  | csr
  | trk (t : Track)
  | dec
  | bs
  | smp
  | ivl
  deriving DecidableEq, Repr

/-- The window of an address; `none` where it is unmapped (20_memory R92). -/
def windowAt (p : Params) (a : Nat) : Option Window :=
  if a ≤ 0xFFF then some .csr
  else if 0x10000 ≤ a ∧ a < 0x10000 + p.trackMax then some (.trk .t1)
  else if 0x10100 ≤ a ∧ a < 0x10100 + p.trackMax then some (.trk .t2)
  else if 0x10200 ≤ a ∧ a < 0x10200 + p.trackMax then some (.trk .t3)
  else if 0x100000 ≤ a ∧ a < 0x100000 + p.decMax then some .dec
  else if 0x200000 ≤ a ∧ a < 0x200000 + p.bsMax then some .bs
  else if 0x1000000 ≤ a ∧ a < 0x1000000 + 2 * p.nsMax then some .smp
  else if 0x2000000 ≤ a ∧ a < 0x2000000 + 4 * p.niMax then some .ivl
  else none

/-- The one access width of a window (20_memory R92, R93). -/
def Window.width : Window → Width
  | .csr => .word
  | .trk _ => .byte
  | .dec => .byte
  | .bs => .byte
  | .smp => .half
  | .ivl => .word

/-- The bytes of a host access width (20_memory R95). -/
def Width.bytes : Width → Nat
  | .byte => 1
  | .half => 2
  | .word => 4

/-- The window an access reaches; `none` is a bus error: unmapped, of another width than the window's, or misaligned
(20_memory R94). -/
def accessedWindow (p : Params) (a : Word) (n : Width) : Option Window :=
  match windowAt p a.toNat with
  | some w => if w.width = n ∧ a.toNat % n.bytes = 0 then some w else none
  | none => none

/-! ### Reading (10_state R30, 20_memory R95, R98) -/

/-- `CTRL` as the host reads it (10_state R32); SRST reads 0. -/
def Ctrl.toWord (c : Ctrl) : Word := 0#16 ++ c.maxAtt ++ 0#6 ++ BitVec.ofBool c.irqEn ++ BitVec.ofBool c.vcDis

/-- `RESPi` (10_state R47). -/
def State.respWord (s : State) (i : Nat) : Word :=
  wordOfBytes (s.respByte (4 * i)) (s.respByte (4 * i + 1)) (s.respByte (4 * i + 2)) (s.respByte (4 * i + 3))

/-- The register at an offset of the CSR window; a reserved offset reads 0 (10_state R30, R31). -/
def State.readCsr (s : State) (offset : Nat) : Word :=
  let c := s.csr
  match offset with
  | 0x00 => c.ctrl.toWord
  | 0x04 => c.cmd
  | 0x08 => c.status.toWord
  | 0x0C => c.freqThres.setWidth 32
  | 0x10 => c.silThres.setWidth 32
  | 0x14 => c.nsamp
  | 0x18 => c.npeak
  | 0x1C => c.nint
  | 0x20 => c.zerobl
  | 0x24 => c.bslen
  | 0x28 => c.declen
  | 0x2C => c.bitidx
  | 0x30 => (BitVec.ofBool c.bitval).setWidth 32
  | 0x34 => 0#16 ++ c.byteOut ++ c.byteIn
  | 0x38 => 0#23 ++ BitVec.ofBool c.xchk ++ c.xrxlen ++ c.xtxlen
  | 0x3C => c.xpay0
  | 0x40 => c.xpay1
  | 0x44 => c.resplen.setWidth 32
  | 0x48 => s.respWord 0
  | 0x4C => s.respWord 1
  | 0x50 => s.respWord 2
  | 0x54 => s.respWord 3
  | 0x60 => c.tk1.cap.setWidth 32
  | 0x64 => c.tk2.cap.setWidth 32
  | 0x68 => c.tk3.cap.setWidth 32
  | 0x70 => c.tk1.len.setWidth 32
  | 0x74 => c.tk2.len.setWidth 32
  | 0x78 => c.tk3.len.setWidth 32
  | 0x80 => c.tk1.wire.setWidth 32
  | 0x84 => c.tk2.wire.setWidth 32
  | 0x88 => c.tk3.wire.setWidth 32
  | _ => 0

/-- The cell at an address of a window, zero-extended (20_memory R92, R95). -/
def State.readCell (s : State) (w : Window) (a : Nat) : Word :=
  match w with
  | .csr => s.readCsr a
  | .trk t => (s.trk t (a - t.base)).setWidth 32
  | .dec => (s.dec (a - 0x100000)).setWidth 32
  | .bs => (byteOfBit (s.bs (a - 0x200000))).setWidth 32
  | .smp => (s.smp ((a - 0x1000000) / 2)).setWidth 32
  | .ivl => s.ivl ((a - 0x2000000) / 4)

/-- An unspecified value of an access width (20_memory R101). -/
def drawOfWidth (n : Width) (v : Word) : Word :=
  match n with
  | .byte => (v.setWidth 8).setWidth 32
  | .half => (v.setWidth 16).setWidth 32
  | .word => v

/-- What an access answers the host. -/
def State.reply (s : State) (data : Word) (busError : Bool) : State :=
  { s with busReply := some { data := data, busError := busError } }

/-- `MemRead(a, n)` (20_memory R95): a bus error answers 0; a memory window while BUSY answers a draw and sets HAZ. -/
def State.memRead (s : State) (a : Word) (n : Width) : State :=
  match accessedWindow s.params a n with
  | none => s.reply 0 true
  | some w =>
    if w ≠ .csr ∧ s.csr.status.busy then
      { s.setHaz.reply (drawOfWidth n (Config.busyRead s.draws)) false with draws := s.draws + 1 }
    else s.reply (s.readCell w a.toNat) false

/-! ### Issuing an operation (60_exceptions R370 to R372) -/

/-- Acceptance or refusal of the word `v` written to `CMD` while not BUSY (60_exceptions R370, R371, R373). -/
def State.issue (s : State) (v : Word) : State :=
  let s := s.withCsr { s.csr with cmd := v }
  if commandLegal v s then
    { s.withStatus s.csr.status.accepted with
      seq := if namesTransaction v then .txn v .start .empty else .run v }
  else s.withStatus s.csr.status.refused

/-- The soft reset (70_reset R402): every register takes its reset value, the sequencer is IDLE, the running operation is
abandoned without completion; the memories and the streams keep their contents (70_reset R403). -/
def State.softReset (s : State) : State := { s.withCsr csrAtReset with seq := .idle }

/-! ### Writing (10_state R30, 20_memory R95, R98, R100) -/

/-- A host write to a register while not BUSY (10_state R30 to R59); reserved offsets and read-only registers ignore it. -/
def State.writeCsr (s : State) (offset : Nat) (v : Word) : State :=
  let c := s.csr
  match offset with
  | 0x00 =>
    if v.getLsbD 2 then s.softReset
    else s.withCsr { c with
      ctrl := { vcDis := v.getLsbD 0, irqEn := v.getLsbD 1, maxAtt := v.extractLsb' 8 8 } }
  | 0x04 => s.issue v
  | 0x08 => s.withStatus (c.status.acknowledge v)
  | 0x0C => s.withCsr { c with freqThres := v.setWidth 8 }
  | 0x10 => s.withCsr { c with silThres := v.setWidth 16 }
  | 0x14 => s.withCsr { c with nsamp := v }
  | 0x1C => s.withCsr { c with nint := v }
  | 0x24 => s.withCsr { c with bslen := v }
  | 0x2C => s.withCsr { c with bitidx := v }
  | 0x30 => s.withCsr { c with bitval := v.getLsbD 0 }
  | 0x34 => s.withCsr { c with byteIn := v.setWidth 8 }
  | 0x38 => s.withCsr { c with
      xtxlen := v.extractLsb' 0 4, xrxlen := v.extractLsb' 4 4, xchk := v.getLsbD 8 }
  | 0x3C => s.withCsr { c with xpay0 := v }
  | 0x40 => s.withCsr { c with xpay1 := v }
  | 0x60 => s.withCsr { c with tk1 := { c.tk1 with cap := v.setWidth 8 } }
  | 0x64 => s.withCsr { c with tk2 := { c.tk2 with cap := v.setWidth 8 } }
  | 0x68 => s.withCsr { c with tk3 := { c.tk3 with cap := v.setWidth 8 } }
  | 0x70 => s.withCsr { c with tk1 := { c.tk1 with len := v.setWidth 8 } }
  | 0x74 => s.withCsr { c with tk2 := { c.tk2 with len := v.setWidth 8 } }
  | 0x78 => s.withCsr { c with tk3 := { c.tk3 with len := v.setWidth 8 } }
  | _ => s

/-- A host write to a cell while not BUSY: the value truncated to the cell width (20_memory R95); a `BS` cell keeps
bit 0 (20_memory R98) and a `SMP` cell `P_SAMPLE_W` bits. -/
def State.writeCell (s : State) (w : Window) (a : Nat) (v : Word) : State :=
  match w with
  | .csr => s.writeCsr a v
  | .trk _ => s.writeBytes a [v.setWidth 8]
  | .dec => s.writeBytes a [v.setWidth 8]
  | .bs => s.writeBytes a [byteOfBit (v.getLsbD 0)]
  | .smp => s.writeBytes a (bytesOfHalf (sampleCell s.params.sampleW (v.setWidth 16)))
  | .ivl => s.writeBytes a (bytesOfWord v)

/-- A host write while BUSY (20_memory R100): the W1C bits of `STATUS`, the soft reset and the overrun act; every other
write is dropped and sets HAZ (log entry 16). -/
def State.writeWhileBusy (s : State) (a : Nat) (v : Word) : State :=
  if a = 0x08 then s.withStatus (s.csr.status.acknowledge v)
  else if a = 0x00 ∧ v.getLsbD 2 then s.softReset
  else if a = 0x04 then s.setCmdOvr
  else s.setHaz

/-- `MemWrite(a, n, v)` (20_memory R95). -/
def State.memWrite (s : State) (a : Word) (n : Width) (v : Word) : State :=
  match accessedWindow s.params a n with
  | none => s.reply 0 true
  | some w =>
    if s.csr.status.busy then (s.writeWhileBusy a.toNat v).reply 0 false
    else (s.writeCell w a.toNat v).reply 0 false

/-- A host access takes effect (20_memory R95, R102). -/
def State.hostAccess (s : State) : Access → State
  | .read a n => s.memRead a n
  | .write a n v => s.memWrite a n v

/-- The device puts a byte on the stream (60_exceptions R381, 20_memory R109). -/
def State.deviceByte (s : State) (b : Byte) : State := { s with rx := s.rx ++ [b] }

/-! ### Fetching (10_state R60) -/

/-- What the block is executing: nothing when IDLE; the accepted command word; and, while a transaction is in the
`SendCmd` of a frame that the wire encoding lists, that frame (00_scope R3, log entry 13). -/
def State.fetched (s : State) : Option CodeWord :=
  match s.seq with
  | .idle => none
  | .run cmd => some (.command cmd)
  | .txn cmd p _ =>
    match p with
    | .frame w _ =>
      match decodeFrame w with
      | .ok _ => some (.frame w)
      | .error _ => some (.command cmd)
    | _ => some (.command cmd)

/-- Whether the next move is the block's: a compute operation moves when the agenda names the block or is empty; a
transaction looks at every event that is not the host's or the device's (60_exceptions R381 to R383). -/
def State.blockMoves (s : State) : Bool :=
  match s.event with
  | some (.host _) => false
  | some (.device _) => false
  | some .block => decide (s.seq ≠ .idle)
  | none => decide (s.seq ≠ .idle)
  | some _ =>
    match s.seq with
    | .txn _ _ _ => true
    | .run _ => false
    | .idle => false

end Sys2Proof.Machine
end

