-- ==== Sys2Proof/Machine/Step.lean ====
section
/-! DEFINITION. One step of the machine: the next move of the agenda takes effect. -/
namespace Sys2Proof.Machine

/-- The outcome with the move just made taken off the agenda. -/
def popNext (o : Host.Outcome State Fault Refusal) : Host.Outcome State Fault Refusal :=
  match o with
  | .next t => .next t.pop
  | .fault r => .fault r
  | .refused r => .refused r

/-- The block's move: one step of the instruction it is executing (10_state R60). A word that decodes to nothing, which
acceptance never lets in, is refused as an illegal command (60_exceptions R371, log entry 12). -/
def blockStep (s : State) : Host.Outcome State Fault Refusal :=
  match s.fetched with
  | none => .next s
  | some w =>
    match decode w with
    | .ok i => exec i s
    | .error _ => .next (s.completeWith .illegalCommand)

/-- One step: the move at the head of the agenda takes effect and leaves the agenda (20_memory R103, 60_exceptions R365).
With no move listed, the block goes on if it waits for nothing, and otherwise nothing happens (log entries 1 and 2). A
move that no agent can make in this state changes nothing else. -/
def step (s : State) : Host.Outcome State Fault Refusal :=
  match s.event with
  | some (.host a) => .next (s.hostAccess a).pop
  | some (.device b) => .next (s.deviceByte b).pop
  | _ => if s.blockMoves then popNext (blockStep s) else .next s.pop

/-- The state in which the very next step runs the instruction with the given table word. A command word stands accepted
(60_exceptions R370) with the block to move. A wire frame stands offered on the port, with its ESC about to be taken, in
the transaction DEV.XCMD of its code, which can send every frame (43_serial_protocol R300, R301). -/
def State.withFetchWord (s : State) (nbits w : Nat) : State :=
  match codeWordOfTable nbits w with
  | .command v =>
    { s with
      csr := { s.csr with cmd := v, status := s.csr.status.accepted }
      seq := if namesTransaction v then .txn v .start .empty else .run v
      agenda := .block :: s.agenda }
  | .frame f =>
    { s with
      csr := { s.csr with
        cmd := commandWord f.second false 0 0x3A
        status := s.csr.status.accepted.waitingFor .send }
      seq := .txn (commandWord f.second false 0 0x3A) (.frame f .esc) .empty
      agenda := .take :: s.agenda }

end Sys2Proof.Machine
end

