-- ==== Sys2Proof/Safety.lean ====
section
/-! DEFINITION. The terms claims use: what an operation leaves alone, what its end records, when a state is consistent, and
the rules of the spec written a second time, apart from the meanings, for the meanings to be held against. -/
namespace Sys2Proof.Machine

/-! ### Runs and frames -/

/-- `k` steps of the machine behind the host's interface. -/
def runs (k : Nat) (s : State) : Host.Outcome State Fault Refusal := Host.Core.run Sys2Proof.core k s

/-- Every byte of memory reads as before. -/
def State.sameMemory (s t : State) : Prop := ∀ a, t.readByte a = s.readByte a

/-- Every byte of memory outside the `n` bytes from address `lo` reads as before. -/
def State.sameMemoryOutside (s t : State) (lo n : Nat) : Prop :=
  ∀ a, a < lo ∨ lo + n ≤ a → t.readByte a = s.readByte a

/-- The transport streams and the agenda are as before. -/
def State.sameStreams (s t : State) : Prop := t.rx = s.rx ∧ t.sent = s.sent ∧ t.agenda = s.agenda

/-- What no block step touches: the parameters, the last bus reply and the draw counter. -/
def State.sameSurroundings (s t : State) : Prop :=
  t.params = s.params ∧ t.busReply = s.busReply ∧ t.draws = s.draws

/-- `STATUS` after completion with code `e`, field by field as 60_exceptions R374 writes them. -/
def statusOnCompletion (st : Status) (e : ErrCode) : Status :=
  { busy := false
    done := true
    err := match e with
      | .none => false
      | _ => true
    cmdOvr := st.cmdOvr
    haz := st.haz
    waitRx := false
    settling := false
    waitTx := false
    errcode := e
    tkerr := st.tkerr
    laststat := st.laststat
    attempts := st.attempts }

/-- The operation ended with code `e` and left the registers `c`, completion aside; the sequencer is IDLE and the
surroundings are as before. -/
def State.endsWith (s t : State) (c : Csr) (e : ErrCode) : Prop :=
  t.csr = { c with status := statusOnCompletion c.status e } ∧ t.seq = .idle ∧ s.sameSurroundings t

/-- The transaction `cmd` is blocked at `p` with the locals `l`, the progress bits show it (10_state R44), the other
registers are `c`, and the surroundings are as before. -/
def State.blocksAt (s t : State) (cmd : Word) (p : Point) (l : Locals) (c : Csr) : Prop :=
  t.csr = { c with status := { c.status with
      waitTx := decide (p.waiting = .send)
      waitRx := decide (p.waiting = .recv)
      settling := match p.waiting with
        | .ticks _ => true
        | _ => false } } ∧
    t.seq = .txn cmd p l ∧ s.sameSurroundings t

/-- The response buffer holds `resp`, and its old bytes behind it (10_state R47). -/
def State.responseIs (s t : State) (resp : List Byte) : Prop :=
  t.csr.resplen = BitVec.ofNat 5 resp.length ∧
    ∀ j < 16, t.respByte j = if j < resp.length then resp.getD j 0 else s.respByte j

/-! ### The operation map (30_encoding R121) -/

/-- A row of the operation map: OPC, whether TRK is 1..3 (else 0), whether RTY may be 1 (else 0), whether ARG is any byte
(else 0), and the operation. -/
structure MapRow where
  opc : Nat
  trk : Bool
  rty : Bool
  arg : Bool
  op : BitVec 2 → Bool → Byte → Instr

/-- The 24 rows. -/
def operationMap : List MapRow :=
  [ ⟨0x00, false, false, false, fun _ _ _ => .nop⟩,
    ⟨0x01, true, false, false, fun t _ _ => .getbit t⟩,
    ⟨0x02, true, false, false, fun t _ _ => .setbit t⟩,
    ⟨0x03, false, false, false, fun _ _ _ => .revbyte⟩,
    ⟨0x04, true, false, false, fun t _ _ => .revtrack t⟩,
    ⟨0x05, true, false, false, fun t _ _ => .unpack t⟩,
    ⟨0x06, false, false, false, fun _ _ _ => .revbits⟩,
    ⟨0x10, false, false, false, fun _ _ _ => .rectify⟩,
    ⟨0x11, false, false, false, fun _ _ _ => .peakfind⟩,
    ⟨0x12, false, false, false, fun _ _ _ => .extract⟩,
    ⟨0x13, false, false, false, fun _ _ _ => .demod⟩,
    ⟨0x20, false, false, false, fun _ _ _ => .decodeAba⟩,
    ⟨0x21, false, false, false, fun _ _ _ => .decodeIata⟩ ] ++
  [ ⟨0x30, false, false, false, fun _ _ _ => .devReset⟩,
    ⟨0x31, false, false, false, fun _ _ _ => .devCommtest⟩,
    ⟨0x32, false, true, false, fun _ r _ => .devReadiso r⟩,
    ⟨0x33, false, true, false, fun _ r _ => .devReadraw r⟩,
    ⟨0x34, false, false, false, fun _ _ _ => .devWriteiso⟩,
    ⟨0x35, false, false, false, fun _ _ _ => .devWriteraw⟩,
    ⟨0x36, false, false, true, fun _ _ a => .devErase a⟩,
    ⟨0x37, false, false, false, fun _ _ _ => .devModel⟩,
    ⟨0x38, false, false, false, fun _ _ _ => .devFirmware⟩,
    ⟨0x39, false, false, false, fun _ _ _ => .devLzquery⟩,
    ⟨0x3A, false, false, true, fun _ _ a => .devXcmd a⟩ ]

/-- The row's legal words (30_encoding R121, R126): its OPC, only the values its columns give, reserved bits 0. -/
def MapRow.admits (r : MapRow) (w : Word) : Prop :=
  w.toNat % 256 = r.opc ∧
    (if r.trk then 1 ≤ w.toNat / 256 % 4 else w.toNat / 256 % 4 = 0) ∧
    w.toNat / 1024 % 4 = 0 ∧
    (r.rty = false → w.toNat / 4096 % 2 = 0) ∧
    w.toNat / 8192 % 2048 = 0 ∧
    (r.arg = false → w.toNat / 16777216 = 0)

/-- The operation the row gives a word, its fields read as unsigned numbers (30_encoding R125). -/
def MapRow.operation (r : MapRow) (w : Word) : Instr :=
  r.op (BitVec.ofNat 2 (w.toNat / 256)) (decide (w.toNat / 4096 % 2 = 1)) (BitVec.ofNat 8 (w.toNat / 16777216))

/-- An operand register or memory of the operation with that OPC is out of the bound 60_exceptions R371 gives it. -/
def State.outOfBounds (s : State) (opc : Nat) : Prop :=
  (opc ∈ [0x10, 0x11, 0x13] ∧ s.params.nsMax < s.csr.nsamp.toNat) ∨
    (opc = 0x12 ∧ (s.params.niMax < s.csr.nint.toNat ∨
      ∃ k < s.csr.nint.toNat, (s.ivl k).toNat = 0 ∨ 0x7FFFFFFF < (s.ivl k).toNat)) ∨
    (opc ∈ [0x06, 0x20, 0x21] ∧ s.params.bsMax < s.csr.bslen.toNat) ∨
    (opc = 0x3A ∧ 8 < s.csr.xtxlen.toNat)

/-- `illegal(v)` of 60_exceptions R371, from the operation map. -/
def State.isIllegal (s : State) (v : Word) : Prop :=
  (∀ r ∈ operationMap, ¬ r.admits v) ∨ s.outOfBounds (v.toNat % 256)

/-- The command codes of 30_encoding R129, the leading-zeros query at its default code. -/
def commandCodes : List (Byte × Instr) :=
  [ (0x72, .wireRead), (0x77, .wireWrite), (0x6D, .wireRawread), (0x6E, .wireRawwrite), (0x65, .wireCommdiag),
    (0x86, .wireSensordiag), (0x87, .wireRamdiag), (0x74, .wireModel), (0x76, .wireFirmware), (0x63, .wireErase),
    (0x62, .wireSetbpi), (0x6F, .wireSetbpc), (0x61, .wireReset), (0x81, .wireLed81), (0x82, .wireLed82),
    (0x83, .wireLed83), (0x84, .wireLed84), (0x85, .wireLed85), (0x78, .wireCoercivityhi),
    (0x79, .wireCoercivitylo), (0x6C, .wireLzquery) ]

/-! ### The address map (20_memory R92) -/

/-- A row of the address map. -/
structure MapWindow where
  window : Window
  base : Nat
  cells : Nat
  width : Nat

/-- The eight windows. -/
def addressMap (p : Params) : List MapWindow :=
  [ ⟨.csr, 0x0, 0x400, 4⟩,
    ⟨.trk .t1, 0x10000, p.trackMax, 1⟩,
    ⟨.trk .t2, 0x10100, p.trackMax, 1⟩,
    ⟨.trk .t3, 0x10200, p.trackMax, 1⟩,
    ⟨.dec, 0x100000, p.decMax, 1⟩,
    ⟨.bs, 0x200000, p.bsMax, 1⟩,
    ⟨.smp, 0x1000000, p.nsMax, 2⟩,
    ⟨.ivl, 0x2000000, p.niMax, 4⟩ ]

/-- An access of `n` bytes at address `a` is an access of one cell of the window. -/
def MapWindow.takes (r : MapWindow) (a : Nat) (n : Width) : Prop :=
  r.base ≤ a ∧ a < r.base + r.cells * r.width ∧ n.bytes = r.width ∧ a % r.width = 0

/-- What a cell of a window holds of a value the host writes: the value truncated to the cell width, for a `BS` cell bit
0 and for a `SMP` cell the `P_SAMPLE_W` low bits (20_memory R91, R95, R98). -/
def Window.truncate (p : Params) (w : Window) (v : Word) : Word :=
  match w with
  | .csr => v
  | .trk _ => v &&& 0xFF#32
  | .dec => v &&& 0xFF#32
  | .bs => v &&& 1#32
  | .smp => BitVec.ofNat 32 (v.toNat % 2 ^ p.sampleW)
  | .ivl => v

/-- The cell of the row's window at address `a`, as a number: cell `(a - base) / width` of the memory as it now is, whoever
wrote it, the power-on draw where no write has reached it (20_memory R92, R95, R98, R110). -/
def State.cellAt (s : State) (r : MapWindow) (a : Nat) : Nat :=
  let k := (a - r.base) / r.width
  match r.window with
  | .csr => (s.readCsr a).toNat
  | .trk t => (s.trk t k).toNat
  | .dec => (s.dec k).toNat
  | .bs => (s.bs k).toNat
  | .smp => (s.smp k).toNat
  | .ivl => (s.ivl k).toNat

/-! ### The register file (10_state R30 to R59) -/

/-- The number of an error code (60_exceptions R360). -/
def errorNumber : ErrCode → Nat
  | .none => 0
  | .illegalCommand => 1
  | .rangeError => 2
  | .noDataError => 3
  | .noStartSentinel => 4
  | .noEndSentinel => 5
  | .parityError => 6
  | .checksumError => 7
  | .transportError => 8
  | .framingError => 9
  | .deviceStatusError => 10

/-- A register of the map: its offset, and its fields, each with its lowest bit and its value. -/
structure RegisterRow where
  offset : Nat
  fields : List (Nat × Nat)

/-- What the register reads as: each field at its place, every other bit 0 (10_state R31). -/
def RegisterRow.value (r : RegisterRow) : Nat := (r.fields.map fun f => f.2 * 2 ^ f.1).sum

/-- `RESPi`: byte j at bits `[8*(j mod 4)+7 : 8*(j mod 4)]` of `RESP(j div 4)` (10_state R47). -/
def responseFields (c : Csr) (i : Nat) : List (Nat × Nat) :=
  (List.range 16).filterMap fun j => if j / 4 = i then some (8 * (j % 4), (c.respb.getD j 0).toNat) else none

/-- The fields of `STATUS` (10_state R38). -/
def statusFields (st : Status) : List (Nat × Nat) :=
  [ (0, st.busy.toNat), (1, st.done.toNat), (2, st.err.toNat), (3, st.cmdOvr.toNat), (4, st.haz.toNat),
    (5, st.waitRx.toNat), (6, st.settling.toNat), (7, st.waitTx.toNat), (8, errorNumber st.errcode),
    (12, st.tkerr.toNat), (16, st.laststat.toNat), (24, st.attempts.toNat) ]

/-- The register map with the place of every field (10_state R30 to R59). -/
def registerMap (c : Csr) : List RegisterRow :=
  [ ⟨0x00, [(0, c.ctrl.vcDis.toNat), (1, c.ctrl.irqEn.toNat), (8, c.ctrl.maxAtt.toNat)]⟩,
    ⟨0x04, [(0, c.cmd.toNat)]⟩,
    ⟨0x08, statusFields c.status⟩,
    ⟨0x0C, [(0, c.freqThres.toNat)]⟩,
    ⟨0x10, [(0, c.silThres.toNat)]⟩,
    ⟨0x14, [(0, c.nsamp.toNat)]⟩,
    ⟨0x18, [(0, c.npeak.toNat)]⟩,
    ⟨0x1C, [(0, c.nint.toNat)]⟩,
    ⟨0x20, [(0, c.zerobl.toNat)]⟩,
    ⟨0x24, [(0, c.bslen.toNat)]⟩,
    ⟨0x28, [(0, c.declen.toNat)]⟩,
    ⟨0x2C, [(0, c.bitidx.toNat)]⟩,
    ⟨0x30, [(0, c.bitval.toNat)]⟩,
    ⟨0x34, [(0, c.byteIn.toNat), (8, c.byteOut.toNat)]⟩,
    ⟨0x38, [(0, c.xtxlen.toNat), (4, c.xrxlen.toNat), (8, c.xchk.toNat)]⟩,
    ⟨0x3C, [(0, c.xpay0.toNat)]⟩,
    ⟨0x40, [(0, c.xpay1.toNat)]⟩ ] ++
  [ ⟨0x44, [(0, c.resplen.toNat)]⟩,
    ⟨0x48, responseFields c 0⟩,
    ⟨0x4C, responseFields c 1⟩,
    ⟨0x50, responseFields c 2⟩,
    ⟨0x54, responseFields c 3⟩,
    ⟨0x60, [(0, c.tk1.cap.toNat)]⟩,
    ⟨0x64, [(0, c.tk2.cap.toNat)]⟩,
    ⟨0x68, [(0, c.tk3.cap.toNat)]⟩,
    ⟨0x70, [(0, c.tk1.len.toNat)]⟩,
    ⟨0x74, [(0, c.tk2.len.toNat)]⟩,
    ⟨0x78, [(0, c.tk3.len.toNat)]⟩,
    ⟨0x80, [(0, c.tk1.wire.toNat)]⟩,
    ⟨0x84, [(0, c.tk2.wire.toNat)]⟩,
    ⟨0x88, [(0, c.tk3.wire.toNat)]⟩ ]

/-- The bits of the register at an offset that a host write changes while the block is not BUSY; `CMD` and `STATUS`,
whose writes do something else, are not read from this table. -/
def writableBits (offset : Nat) : Word :=
  if offset = 0x00 then 0x0000FF03#32
  else if offset ∈ [0x0C, 0x34, 0x60, 0x64, 0x68, 0x70, 0x74, 0x78] then 0x000000FF#32
  else if offset = 0x10 then 0x0000FFFF#32
  else if offset ∈ [0x14, 0x1C, 0x24, 0x2C, 0x3C, 0x40] then 0xFFFFFFFF#32
  else if offset = 0x30 then 0x00000001#32
  else if offset = 0x38 then 0x000001FF#32
  else 0

/-! ### Consistent states -/

/-- What the sequencer waits for. -/
def State.waiting (s : State) : Waiting :=
  match s.seq with
  | .idle => .nothing
  | .run _ => .nothing
  | .txn _ p _ => p.waiting

/-- The accepted command word is in `CMD`, is legal, and names a transaction exactly in `TXN` (10_state R60, 60_exceptions
R367, R370). -/
def State.acceptedCommand (s : State) : Prop :=
  match s.seq with
  | .idle => True
  | .run cmd => s.csr.cmd = cmd ∧ commandLegal cmd s = true ∧ namesTransaction cmd = false
  | .txn cmd _ _ => s.csr.cmd = cmd ∧ commandLegal cmd s = true ∧ namesTransaction cmd = true

/-- What holds between the sequencer, `STATUS` and the response buffer in every state that a run reaches. -/
structure State.Consistent (s : State) : Prop where
  /-- `seq = IDLE` if and only if `STATUS.BUSY = 0` (10_state R62). -/
  busy_iff : s.csr.status.busy = true ↔ s.seq ≠ .idle
  /-- The progress bits show where the transaction is blocked (10_state R44). -/
  waitTx_eq : s.csr.status.waitTx = decide (s.waiting = .send)
  waitRx_eq : s.csr.status.waitRx = decide (s.waiting = .recv)
  settling_iff : s.csr.status.settling = true ↔ ∃ left, s.waiting = .ticks left
  /-- A running operation has no completion to report (60_exceptions R373, R378). -/
  running : s.csr.status.busy = true → s.csr.status.done = false ∧ s.csr.status.errcode = .none
  /-- `ERR` and `ERRCODE` go together (10_state R41). -/
  err_iff : s.csr.status.err = true ↔ s.csr.status.errcode ≠ .none
  /-- `RESPLEN <= 16` (10_state R62). -/
  response_fits : s.csr.resplen.toNat ≤ 16
  accepted : s.acceptedCommand

/-- The positions of a read at which the tracks of the attempt have been cleared (43_serial_protocol R276): those behind
the start of `ReadAttempt`, so in a retried read not the frame of the device reset. -/
def attemptBegun (rty : Bool) : Point → Bool
  | .frame w _ => !(rty && w == commandFrame 0x61#8)
  | .scan _ => true
  | .headerEsc _ => true
  | .headerNum _ => true
  | .trackData _ => true
  | .reply _ => true
  | _ => false

/-- Every track's stored length is within its capacity (10_state R62). -/
def State.tracksWithinCapacity (s : State) : Prop := ∀ t : Track, (s.tk t).len.toNat ≤ (s.tk t).cap.toNat

/-- The transport event or tick is one the sequencer waits for (60_exceptions R381 to R384); a delivery needs a byte in the
stream. -/
def State.awaits (s : State) (a : Action) : Prop :=
  match a with
  | .take => s.waiting = .send
  | .deliver => s.waiting = .recv ∧ s.rx ≠ []
  | .error => s.waiting = .send ∨ s.waiting = .recv
  | .tick => ∃ left, s.waiting = .ticks left
  | _ => False

/-! ### Tracks -/

/-- The track index as a TRK field (30_encoding R122). -/
def Track.field : Track → BitVec 2
  | .t1 => 1
  | .t2 => 2
  | .t3 => 3

/-- `bit(TRK[t], i)` of 40_bitbuffer R160. -/
def State.trackBit (s : State) (t : Track) (i : Nat) : Bool := (s.trk t (i / 8)).getLsbD (7 - i % 8)

/-! ### Peaks (41_demodulator R200 to R202) -/

/-- Every index from `i` to `j` is non-silent: `i <= j` lie in one run. -/
def sameRun (mags : List Nat) (silence i j : Nat) : Prop := ∀ k, i ≤ k → k ≤ j → silence < mags.getD k 0

/-- Index `i` is the peak of its run: non-silent, above every earlier sample of the run and not below any later one. -/
def isPeak (mags : List Nat) (silence i : Nat) : Prop :=
  i < mags.length ∧ silence < mags.getD i 0 ∧
    (∀ j < i, sameRun mags silence j i → mags.getD j 0 < mags.getD i 0) ∧
    (∀ j > i, sameRun mags silence i j → mags.getD j 0 ≤ mags.getD i 0)

/-! ### The extractor loop with its index (41_demodulator R214) -/

/-- `100 * |2x - z| < t * z`, or `<=` when the windows are closed (41_demodulator R213). -/
def halfCell (closed : Bool) (t x z : Nat) : Bool :=
  let distance := max (2 * x) z - min (2 * x) z
  if closed then decide (100 * distance ≤ t * z) else decide (100 * distance < t * z)

/-- `100 * |x - z| < t * z`, or `<=` when the windows are closed (41_demodulator R213). -/
def fullCell (closed : Bool) (t x z : Nat) : Bool :=
  let distance := max x z - min x z
  if closed then decide (100 * distance ≤ t * z) else decide (100 * distance < t * z)

/-- `while i <= n - 2` of EXTRACT, at most `fuel` rounds, with the index, the reference and the bits so far. -/
def extractLoop (closed vcdis : Bool) (t : Nat) (ivl : Nat → Nat) (n : Nat) :
    Nat → Nat → Nat → List Bool → List Bool × Nat
  | 0, _, z, out => (out, z)
  | fuel + 1, i, z, out =>
    if i + 2 ≤ n then
      if halfCell closed t (ivl i) z && halfCell closed t (ivl (i + 1)) z then
        extractLoop closed vcdis t ivl n fuel (i + 2) (2 * ivl i) (out ++ [true])
      else if fullCell closed t (ivl i) z then
        extractLoop closed vcdis t ivl n fuel (i + 1) (if vcdis then z else ivl i) (out ++ [false])
      else extractLoop closed vcdis t ivl n fuel (i + 1) z out
    else (out, z)

/-- The loop of EXTRACT in a state, from the seed `IVL[2]` and the index `P_FIRST`. Every round raises the index, so
`NINT` rounds are enough. -/
def State.extraction (s : State) : List Bool × Nat :=
  extractLoop s.params.windowClosed s.csr.ctrl.vcDis s.csr.freqThres.toNat (fun k => (s.ivl k).toNat)
    s.csr.nint.toNat s.csr.nint.toNat s.params.first (s.ivl 2).toNat []

/-! ### The decode datapath by positions (42_track_decoder R230 to R243) -/

/-- A bitstring in the notation of 00_scope R11, leftmost symbol first. -/
def symbols (l : List Nat) : List Bool := l.map (· == 1)

/-- The decode operations with the framing of each: W, BASE, SSCH, ESCH, SS and ES as 42_track_decoder R230 and 30_encoding
R138 write them. -/
def framings : List (Instr × Framing) :=
  [ (.decodeAba, ⟨5, 0x30, 0x3B#8, 0x3F#8, symbols [1, 1, 0, 1, 0], symbols [1, 1, 1, 1, 1]⟩),
    (.decodeIata, ⟨7, 0x20, 0x25#8, 0x3F#8, symbols [1, 0, 1, 0, 0, 0, 1], symbols [1, 1, 1, 1, 1, 0, 0]⟩) ]

/-- `match(B, k, P)` (42_track_decoder R233). -/
def matchesAt (b : List Bool) (k : Nat) (p : List Bool) : Bool :=
  decide (k + p.length ≤ b.length) && (List.range p.length).all fun j => b.getD (k + j) false == p.getD j false

/-- The list holds an odd number of 1s (42_track_decoder R231). -/
def oddOnes (c : List Bool) : Bool := c.count true % 2 == 1

/-- Bit `j` of the LRC over the start sentinel, `n` chunks from position `d` and the end sentinel (42_track_decoder R239,
R240). -/
def lrcBit (f : Framing) (b : List Bool) (d n j : Nat) : Bool :=
  oddOnes (f.startBits.getD j false :: f.endBits.getD j false ::
    (List.range n).map fun c => b.getD (d + c * f.width + j) false)

/-- The chunk at position `k`. -/
def chunkAt (f : Framing) (b : List Bool) (k : Nat) : List Bool :=
  (List.range f.width).map fun j => b.getD (k + j) false

/-- `BASE + sum c[j] * 2^j` for the chunk at position `k` (42_track_decoder R232). -/
def characterAt (f : Framing) (b : List Bool) (k : Nat) : Byte :=
  BitVec.ofNat 8 (f.base + ((List.range (f.width - 1)).map fun j => (b.getD (k + j) false).toNat * 2 ^ j).sum)

/-- The LRC field a track must hold: the LRC bits and a parity bit that makes their number of 1s odd. -/
def lrcFieldOf (bits : List Bool) : List Bool := bits ++ [!oddOnes bits]

/-- `Decode(F, B)` (42_track_decoder R237). -/
def decodeByPositions (f : Framing) (b : List Bool) : Except ErrCode (List Byte) :=
  match (List.range (b.length + 1)).find? fun k => matchesAt b k f.startBits with
  | none => .error .noStartSentinel
  | some s =>
    let d := s + f.width
    match (List.range (b.length + 1)).find? fun k =>
        decide (d ≤ k) && (k - d) % f.width == 0 && matchesAt b k f.endBits with
    | none => .error .noEndSentinel
    | some e =>
      let n := (e - d) / f.width
      let starts := (List.range n).map fun c => d + c * f.width
      let field := lrcFieldOf ((List.range (f.width - 1)).map fun j => lrcBit f b d n j)
      if starts.any fun k => !oddOnes (chunkAt f b k) then .error .parityError
      else if b.length < e + 2 * f.width then .error .checksumError
      else if chunkAt f b (e + f.width) ≠ field then .error .checksumError
      else .ok (f.startChar :: (starts.map (characterAt f b) ++ [f.endChar]))

/-! ### Tracks as encoded bitstrings (30_encoding R134, R139, 42_track_decoder R249) -/

/-- A value's chunk: its bits, least significant first, and a parity bit that makes the number of 1s odd. -/
def chunkOfValue (f : Framing) (v : Nat) : List Bool :=
  lrcFieldOf ((List.range (f.width - 1)).map v.testBit)

/-- Start sentinel, data chunks, end sentinel, LRC chunk. -/
def encodedTrack (f : Framing) (vals : List Nat) : List Bool :=
  let body := f.startBits ++ vals.flatMap (chunkOfValue f) ++ f.endBits
  body ++ lrcFieldOf ((List.range (f.width - 1)).map fun j =>
    oddOnes (f.startBits.getD j false :: f.endBits.getD j false :: vals.map fun v => v.testBit j))

/-- A value of the framing that is not the end sentinel's. -/
def isDataValue (f : Framing) (v : Nat) : Prop := v < 2 ^ (f.width - 1) ∧ f.base + v ≠ f.endChar.toNat

/-! ### Transactions -/

/-- The code of the first command frame of each transaction (43_serial_protocol, 44_retry R342). -/
def firstCode (p : Params) : Instr → Option Byte
  | .devReset => some 0x61
  | .devCommtest => some 0x65
  | .devReadiso rty => some (if rty then 0x61 else 0x72)
  | .devReadraw rty => some (if rty then 0x61 else 0x6D)
  | .devWriteiso => some 0x77
  | .devWriteraw => some 0x6E
  | .devErase _ => some 0x63
  | .devModel => some 0x74
  | .devFirmware => some 0x76
  | .devLzquery => some p.lzCmd
  | .devXcmd code => some code
  | _ => none

/-- The registers at the start of `ReadAttempt` (43_serial_protocol R276). -/
def clearedForRead (c : Csr) : Csr :=
  { c with
    tk1 := { cap := c.tk1.cap, len := 0, wire := 0 }
    tk2 := { cap := c.tk2.cap, len := 0, wire := 0 }
    tk3 := { cap := c.tk3.cap, len := 0, wire := 0 }
    status := { c.status with tkerr := 0 }
    resplen := 0 }

/-- The registers each transaction has when its first command frame is offered. -/
def registersAtFirstFrame (c : Csr) : Instr → Csr
  | .devReset => c
  | .devCommtest => c
  | .devReadiso rty => if rty then { c with status := { c.status with attempts := 1 } } else clearedForRead c
  | .devReadraw rty => if rty then { c with status := { c.status with attempts := 1 } } else clearedForRead c
  | _ => { c with resplen := 0 }

/-- The locals each transaction has when its first command frame is offered: those of the retry loop, in its first attempt,
with `CTRL.MAX_ATT` as it was at acceptance (44_retry R342). -/
def localsAtFirstFrame (c : Csr) : Instr → Locals
  | .devReadiso rty => if rty then { attempts := 1, maxAtt := c.ctrl.maxAtt } else .empty
  | .devReadraw rty => if rty then { attempts := 1, maxAtt := c.ctrl.maxAtt } else .empty
  | _ => .empty

/-- Where each transaction goes on after a command frame with that code, `none` where it waits for nothing there: no
settle tick, no START scan, neither payload nor response (43_serial_protocol R272 to R300, 44_retry R341). -/
def pointAfterFrame (p : Params) (c : Csr) (code : Byte) : Instr → Option Point
  | .devReset => if p.settleTicks = 0 then none else some (.settle p.settleTicks)
  | .devCommtest => some .commtest
  | .devReadiso rty => pointAfterReadFrame rty
  | .devReadraw rty => pointAfterReadFrame rty
  | .devWriteiso => some .writeStart
  | .devWriteraw => some .writeStart
  | .devErase mask => some (.eraseMask mask)
  | .devModel => some (.reply p.modelLen)
  | .devFirmware => some (.reply p.fwLen)
  | .devLzquery => some (.reply p.lzLen)
  | .devXcmd _ =>
    if c.xtxlen ≠ 0 then some (.payload 0) else if c.xrxlen ≠ 0 then some (.reply c.xrxlen.toNat) else none
  | _ => none
where
  /-- A read: the settle wait behind the device reset of an attempt, the START scan behind the read command. -/
  pointAfterReadFrame (rty : Bool) : Option Point :=
    if rty && code == 0x61#8 then (if p.settleTicks = 0 then none else some (.settle p.settleTicks))
    else if p.startScan = 0 then none else some (.scan 0)

/-- A read attempt ended with code `e` and left the registers `c`: with RTY = 0 that ends the operation; with RTY = 1
success ends it, and so does any result of attempt `MAX_ATT`, unless that is 0; otherwise the next attempt is counted and
its device reset offered (43_serial_protocol R274, 44_retry R341 to R343). -/
def State.attemptEnds (s t : State) (cmd : Word) (rty : Bool) (l : Locals) (c : Csr) (e : ErrCode) : Prop :=
  (rty = false ∨ e = .none ∨ (l.maxAtt ≠ 0 ∧ l.maxAtt.toNat ≤ l.attempts) → s.endsWith t c e) ∧
  (rty = true → e ≠ .none → l.maxAtt = 0 ∨ l.attempts < l.maxAtt.toNat →
    s.blocksAt t cmd (.frame 0x1B61#16 .esc) { l with attempts := l.attempts + 1 }
      { c with status := { c.status with attempts := BitVec.ofNat 8 (min (l.attempts + 1) 255) } })

/-- The bytes of a write frame (30_encoding R132). -/
def State.writeFrame (s : State) (raw : Bool) : List Byte :=
  let track (t : Track) : List Byte :=
    [0x1B#8, t.wireNumber] ++ (if raw then [(s.tk t).len] else []) ++ s.trackBytes t
  [0x1B#8, if raw then 0x6E#8 else 0x77#8, 0x73#8] ++ track .t1 ++ track .t2 ++ track .t3 ++ [0x3F#8, 0x1C#8]

/-- The code with which a checked status byte ends a transaction (43_serial_protocol R271). -/
def statusVerdict (b : Byte) : ErrCode := if b = 0x30#8 then .none else .deviceStatusError

/-- The payload bytes of DEV.XCMD (10_state R58, 43_serial_protocol R300). -/
def State.payload (s : State) : List Byte :=
  ((List.range 8).map fun k => (if k < 4 then s.csr.xpay0 else s.csr.xpay1).extractLsb' (8 * (k % 4)) 8).take
    s.csr.xtxlen.toNat

/-- The bytes of a good track on the wire (30_encoding R131). -/
def wireTrack (t : Track) (data : List Byte) : List Byte := [0x1B#8, t.wireNumber] ++ data ++ [0x3F#8]

/-- Bytes that a track can carry: neither END nor an error delimiter (43_serial_protocol R279). -/
def isTrackData (p : Params) (data : List Byte) : Prop := ∀ b ∈ data, b ≠ 0x3F#8 ∧ b ∉ p.errDelims

/-- The registers of a track after a good read of `data` (43_serial_protocol R280), its bytes counted in `P_WIRE_W` bits. -/
def tkAfterGoodTrack (p : Params) (r : TrackRegs) (data : List Byte) : TrackRegs :=
  { cap := r.cap
    len := BitVec.ofNat 8 (min r.cap.toNat data.length)
    wire := BitVec.ofNat 16 (min data.length (2 ^ p.wireW - 1)) }

/-- Where a read goes on after track t, the first header byte of the next track already received when `carry`
(43_serial_protocol R278, R281). -/
def pointAfterTrack (p : Params) (carry : Bool) : Track → Point
  | .t1 => if carry then .headerNum .t2 else .headerEsc .t2
  | .t2 => if carry then .headerNum .t3 else .headerEsc .t3
  | .t3 => .reply p.readTrailerLen

/-- The registers after a framing error of track t (43_serial_protocol R283). -/
def afterTrackError (c : Csr) (t : Track) : Csr :=
  let c := c.setTk t { c.tk t with len := 0 }
  { c with status := { c.status with tkerr := c.status.tkerr ||| (match t with
      | .t1 => 1
      | .t2 => 2
      | .t3 => 4) } }

end Sys2Proof.Machine
end

