-- ==== Sys2Proof/Certificates/Slice0/Obligations.lean ====
section
/-! DEFINITION. The statements for the provers. -/

section
open Sys2Proof Sys2Proof.Machine

/-! ### Encodings -/

/-- Decoding the word of a well-formed instruction gives the instruction back, every operand at every value the encoding
admits, in both encoding spaces (30_encoding R121, R125, R127, R129). -/
def Obligations.DecodeInvertsEncode : Prop :=
  ∀ i : Instr, i.wellFormed = true → decode (encode i) = .ok i

/-- A word that decodes is the word of the instruction it decodes to: no bit of a word is ignored, and no instruction has
two words (30_encoding R120, R126, R129). -/
def Obligations.EncodeInvertsDecode : Prop :=
  ∀ (w : CodeWord) (i : Instr), decode w = .ok i → encode i = w

/-- The assembled command word and its four examples (30_encoding R127). -/
def Obligations.CommandWordIsAssembledFromItsFields : Prop :=
  (∀ (arg : Byte) (rty : Bool) (trk : BitVec 2) (opc : Byte),
    (commandWord arg rty trk opc).toNat = arg.toNat <<< 24 ||| rty.toNat <<< 12 ||| trk.toNat <<< 8 ||| opc.toNat) ∧
  encode (.getbit 2) = .command 0x00000201#32 ∧
  encode (.devErase 0x07) = .command 0x07000036#32 ∧
  encode (.devReadiso true) = .command 0x00001032#32 ∧
  encode (.devXcmd 0x85) = .command 0x8500003A#32

/-- A command word decodes to a well-formed instruction exactly when a row of the operation map admits it, and then to that
row's operation on the word's fields (30_encoding R121, R125). -/
def Obligations.CommandWordsFollowTheOperationMap : Prop :=
  ∀ (w : Word) (i : Instr),
    (decodeCommand w = .ok i ∧ i.wellFormed = true) ↔ ∃ r ∈ operationMap, r.admits w ∧ r.operation w = i

/-- Words written out bit by bit from 30_encoding R120 and R129 decode to the instructions they stand for, and words with a
reserved OPC, a reserved bit, a field the row forbids, no ESC or an unlisted code decode to none. -/
def Obligations.WrittenOutWordsDecode : Prop :=
  decode (.command 0b00000000_00000000_00000000_00000000#32) = .ok .nop ∧
  decode (.command 0b00000000_00000000_00000011_00000010#32) = .ok (.setbit 3) ∧
  decode (.command 0b00000000_00000000_00000000_00010010#32) = .ok .extract ∧
  decode (.command 0b00000000_00000000_00000000_00100001#32) = .ok .decodeIata ∧
  decode (.command 0b00000000_00000000_00010000_00110011#32) = .ok (.devReadraw true) ∧
  decode (.command 0b10000101_00000000_00000000_00111010#32) = .ok (.devXcmd 0x85) ∧
  decode (.frame 0b00011011_01110010#16) = .ok .wireRead ∧
  decode (.frame 0b00011011_01100011#16) = .ok .wireErase ∧
  decode (.command 0b00000000_00000000_00000000_00000111#32) = .error .reservedOpc ∧
  decode (.command 0b00000000_00000000_00000100_00000000#32) = .error .reservedBits ∧
  decode (.command 0b00000000_00000000_00000001_00000000#32) = .error .illegalTrk ∧
  decode (.command 0b00000000_00000000_00010000_00110100#32) = .error .illegalRty ∧
  decode (.command 0b00000001_00000000_00000000_00000000#32) = .error .illegalArg ∧
  decode (.frame 0b00011100_01110010#16) = .error .missingEscape ∧
  decode (.frame 0b00011011_01110011#16) = .error .unlistedCode

/-! ### The step -/

/-- When the block moves and what it is executing decodes to an instruction, the step is that instruction's `exec` with the
move taken off the agenda. The block is executing the accepted command word, or, while a transaction is in the `SendCmd` of
a listed frame, that frame; a compute operation moves when the agenda names the block or is empty, a transaction at every
move that is neither the host's nor the device's. The agenda and the frame as an instruction are the model's choice (log
entries 1, 2 and 13). -/
def Obligations.StepRunsTheFetchedInstruction : Prop :=
  (∀ (s : State) (w : CodeWord) (i : Instr), s.blockMoves = true → s.fetched = some w → decode w = .ok i →
    step s = match exec i s with
      | .next t => .next { t with agenda := t.agenda.tail }
      | .fault r => .fault r
      | .refused r => .refused r) ∧
  (∀ (s : State) (cmd : Word), s.seq = .run cmd → s.agenda.head? = none ∨ s.agenda.head? = some .block →
    s.blockMoves = true ∧ s.fetched = some (.command cmd)) ∧
  (∀ (s : State) (cmd : Word) (p : Point) (l : Locals), s.seq = .txn cmd p l →
    (∀ a, s.agenda.head? ≠ some (.host a)) → (∀ b, s.agenda.head? ≠ some (.device b)) →
    s.blockMoves = true ∧
    (∀ (w : FrameWord) (b : FrameByte) (i : Instr), p = .frame w b → decodeFrame w = .ok i →
      s.fetched = some (.frame w)) ∧
    ((∀ (w : FrameWord) (b : FrameByte) (i : Instr), p = .frame w b → decodeFrame w ≠ .ok i) →
      s.fetched = some (.command cmd)))

/-- No step stops: every step answers a next state, with the same parameters and the move taken off the agenda (introduction
of 60_exceptions: the block has no traps; 20_memory R94; the agenda is the model's choice, log entry 1). -/
def Obligations.EveryStepAnswersNext : Prop :=
  ∀ s : State, ∃ t, step s = .next t ∧ t.params = s.params ∧ t.agenda = s.agenda.tail

/-- The host's and the device's moves: a host access takes effect, a device byte joins the end of the stream (20_memory
R103, R109). The agenda is the model's (log entry 1). -/
def Obligations.HostAndDeviceMovesTakeEffect : Prop :=
  (∀ (s : State) (a : Access) (rest : List Action), s.agenda = .host a :: rest →
    step s = .next { s.hostAccess a with agenda := rest }) ∧
  (∀ (s : State) (b : Byte) (rest : List Action), s.agenda = .device b :: rest →
    step s = .next { s with rx := s.rx ++ [b], agenda := rest })

/-! ### Invariants -/

/-- Every step keeps the memory list in its canonical form (the model's representation, log entry 20, of 20_memory R91 and
R103: a single copy of each cell). -/
def Obligations.MemoryCanonicalFormIsKept : Prop :=
  ∀ s t : State, s.mem.wf → step s = .next t → t.mem.wf

/-- Every step keeps the sequencer, `STATUS`, `CMD` and the response buffer consistent: `seq = IDLE` exactly when BUSY is 0,
`RESPLEN <= 16`, the progress bits exactly as the position says, no completion pending while BUSY, ERR with ERRCODE, the
running command word in `CMD` and still legal (10_state R41, R44, R62, 60_exceptions R367, R378). -/
def Obligations.SequencerAndStatusStayConsistent : Prop :=
  ∀ s t : State, s.Consistent → step s = .next t → t.Consistent

/-- The state right after reset is consistent, its memory is in canonical form, and its tracks are within capacity.
The canonical form of the memory list is the model's representation (log entry 20). -/
def Obligations.ResetStateMeetsTheInvariants : Prop :=
  State.reset.Consistent ∧ State.reset.mem.wf ∧ State.reset.tracksWithinCapacity

/-- A read keeps every stored track length within its capacity: every step from a position behind the start of its attempt
keeps it, and the start of an attempt brings it about (10_state R62: "after a read transaction TK_LENt <= TK_CAPt"). -/
def Obligations.ReadsKeepTracksWithinCapacity : Prop :=
  ∀ (rty : Bool) (i : Instr), i ∈ [.devReadiso rty, .devReadraw rty] →
    (∀ (s t : State) (cmd : Word) (p : Point) (l : Locals), s.seq = .txn cmd p l → attemptBegun rty p = true →
      s.tracksWithinCapacity → exec i s = .next t → t.tracksWithinCapacity) ∧
    (∀ (s t : State) (cmd : Word) (l : Locals), s.seq = .txn cmd .start l → rty = false → s.event = some .block →
      exec i s = .next t → t.tracksWithinCapacity) ∧
    (∀ (s t : State) (cmd : Word) (l : Locals), s.seq = .txn cmd (.settle 1) l → s.event = some .tick →
      exec i s = .next t → t.tracksWithinCapacity)

/-! ### Reset -/

/-- What the host reads of every register after power-on, the sequencer, the interrupt, and the memories, which hold draws
under no law (70_reset R400, R401). The draw of a byte is the free value `Config.powerOnByte` of its address (log
entry 4). -/
def Obligations.PowerOnResetValues : Prop :=
  (∀ offset ∈ [0x60, 0x64, 0x68], State.reset.readCsr offset = 0x000000FF#32) ∧
  (∀ offset ∉ [0x60, 0x64, 0x68], State.reset.readCsr offset = 0#32) ∧
  State.reset.seq = .idle ∧ State.reset.irq = false ∧
  (∀ a, State.reset.readByte a = Config.powerOnByte a)

/-- A host write to `CTRL` with bit 2 set, BUSY or not and whatever its other bits, is the soft reset, and SRST reads
0 (10_state R35, 70_reset R402). The reply 0 to a write and the agenda that carries the host's move are the model's
(log entries 9 and 1). -/
def Obligations.SoftResetWorksAtAnyTime : Prop :=
  (∀ (s : State) (v : Word) (rest : List Action), v.getLsbD 2 = true →
    s.agenda = .host (.write 0#32 .word v) :: rest →
    ∃ t, step s = .next t ∧ t.csr = State.reset.csr ∧ t.seq = .idle ∧ t.irq = false ∧ s.sameMemory t ∧
      t.rx = s.rx ∧ t.sent = s.sent ∧ t.params = s.params ∧ t.draws = s.draws ∧ t.agenda = rest ∧
      t.busReply = some { data := 0, busError := false }) ∧
  (∀ s : State, (s.readCsr 0x00).getLsbD 2 = false)

/-! ### Host accesses -/

/-- An access reaches a window exactly when a row of the address map takes it: the window's addresses, its one width,
naturally aligned (20_memory R92, R93). -/
def Obligations.AccessesFollowTheAddressMap : Prop :=
  ∀ (p : Params) (a : Word) (n : Width) (w : Window), p.valid = true →
    (accessedWindow p a n = some w ↔ ∃ r ∈ addressMap p, r.window = w ∧ r.takes a.toNat n)

/-- An access that no window takes is a bus error: the host is answered 0 with an error, and nothing of the block
changes, read or write, BUSY or not (20_memory R94). That the reply to a bus-error write carries the value 0 too is
the model's (log entry 9). -/
def Obligations.BusErrorsChangeNothing : Prop :=
  ∀ (s : State) (a : Word) (n : Width), (∀ r ∈ addressMap s.params, ¬ r.takes a.toNat n) →
    s.hostAccess (.read a n) = { s with busReply := some { data := 0, busError := true } } ∧
    ∀ v, s.hostAccess (.write a n v) = { s with busReply := some { data := 0, busError := true } }

/-- While not BUSY, a host read of a memory cell answers the cell as it now is, zero-extended, whether the host, the
block or nothing has written it, and changes nothing else; a host write to the cell is what the next host read of it
answers, truncated to the cell width (bit 0 for a BS cell, `P_SAMPLE_W` bits for a SMP cell), and changes no other byte,
nor anything else (20_memory R91, R95, R98, R99, R103, R104, R110). The reply 0 to a write, a sample width other than
16, and one power-on draw for each host address, are the model's (log entries 9, 7 and 4). -/
def Obligations.MemoryWriteThenReadReturnsTheCell : Prop :=
  ∀ (s : State) (r : MapWindow) (a : Word) (n : Width) (v : Word), s.params.valid = true →
    s.csr.status.busy = false → r ∈ addressMap s.params → r.window ≠ .csr → r.takes a.toNat n →
    s.hostAccess (.read a n) =
      { s with busReply := some { data := BitVec.ofNat 32 (s.cellAt r a.toNat), busError := false } } ∧
    (s.hostAccess (.write a n v)).busReply = some { data := 0, busError := false } ∧
    (s.hostAccess (.write a n v)).hostAccess (.read a n) =
      { s.hostAccess (.write a n v) with busReply := some { data := r.window.truncate s.params v, busError := false } } ∧
    s.sameMemoryOutside (s.hostAccess (.write a n v)) a.toNat r.width ∧
    (s.hostAccess (.write a n v)).csr = s.csr ∧ (s.hostAccess (.write a n v)).seq = s.seq ∧
    (s.hostAccess (.write a n v)).params = s.params ∧ (s.hostAccess (.write a n v)).draws = s.draws ∧
    s.sameStreams (s.hostAccess (.write a n v))

/-- The register file. Every register reads as its fields at their places and every other bit and offset as 0. While
not BUSY, a host write to a register other than `CMD` and `STATUS`, without the soft reset bit, changes the register's
writable bits and nothing else; read-only registers, reserved bits and reserved offsets ignore it. A host read of a
register answers its value and changes nothing, BUSY or not (10_state R30 to R59, 20_memory R99, R101). -/
def Obligations.RegisterFileReadsAndWrites : Prop :=
  (∀ (s : State), ∀ r ∈ registerMap s.csr, (s.readCsr r.offset).toNat = r.value) ∧
  (∀ (s : State) (offset : Nat), offset ∉ (registerMap s.csr).map RegisterRow.offset → s.readCsr offset = 0#32) ∧
  ∀ (s : State) (offset : Nat), offset < 0x1000 → offset % 4 = 0 →
    s.hostAccess (.read (BitVec.ofNat 32 offset) .word) =
      { s with busReply := some { data := s.readCsr offset, busError := false } } ∧
    ∀ v : Word, s.csr.status.busy = false → offset ≠ 0x04 → offset ≠ 0x08 →
      (offset = 0x00 → v.getLsbD 2 = false) →
      (∀ o, (s.hostAccess (.write (BitVec.ofNat 32 offset) .word v)).readCsr o =
        if o = offset then (v &&& writableBits offset) ||| (s.readCsr offset &&& ~~~ writableBits offset)
        else s.readCsr o) ∧
      s.sameMemory (s.hostAccess (.write (BitVec.ofNat 32 offset) .word v)) ∧
      s.sameStreams (s.hostAccess (.write (BitVec.ofNat 32 offset) .word v)) ∧
      (s.hostAccess (.write (BitVec.ofNat 32 offset) .word v)).seq = s.seq ∧
      (s.hostAccess (.write (BitVec.ofNat 32 offset) .word v)).params = s.params ∧
      (s.hostAccess (.write (BitVec.ofNat 32 offset) .word v)).draws = s.draws

/-- While BUSY, a host write acts on the W1C bits of `STATUS`, is the soft reset, or is the overrun; every other write
that is no bus error is dropped and sets HAZ (20_memory R100, 60_exceptions R372). That a write to a reserved or
read-only offset counts as dropped is the model's reading (log entry 16), and the reply 0 to a write is the model's
(log entry 9). -/
def Obligations.WritesWhileBusy : Prop :=
  ∀ (s : State) (r : MapWindow) (a : Word) (n : Width) (v : Word), s.params.valid = true →
    s.csr.status.busy = true → r ∈ addressMap s.params → r.takes a.toNat n →
    s.hostAccess (.write a n v) =
      { (if a = 0x08#32 then
          { s with csr := { s.csr with status := { s.csr.status with
              done := s.csr.status.done && !v.getLsbD 1
              err := s.csr.status.err && !v.getLsbD 2
              errcode := if v.getLsbD 2 then .none else s.csr.status.errcode
              cmdOvr := s.csr.status.cmdOvr && !v.getLsbD 3
              haz := s.csr.status.haz && !v.getLsbD 4 } } }
        else if a = 0x00#32 ∧ v.getLsbD 2 = true then { s with csr := State.reset.csr, seq := .idle }
        else if a = 0x04#32 then { s with csr := { s.csr with status := { s.csr.status with cmdOvr := true } } }
        else { s with csr := { s.csr with status := { s.csr.status with haz := true } } }) with
        busReply := some { data := 0, busError := false } }

/-- While BUSY, a host read of a register answers its current value and changes nothing; a read of a memory window
answers a draw, a fresh one for each such read, and sets HAZ (20_memory R101). The draw is the free value
`Config.busyRead` of a counter that each such read raises, which is the model's form of an unspecified value (log
entry 5). -/
def Obligations.ReadsWhileBusy : Prop :=
  ∀ (s : State) (r : MapWindow) (a : Word) (n : Width), s.params.valid = true → s.csr.status.busy = true →
    r ∈ addressMap s.params → r.takes a.toNat n →
    s.hostAccess (.read a n) =
      if r.window = .csr then { s with busReply := some { data := s.readCsr a.toNat, busError := false } }
      else { s with
        csr := { s.csr with status := { s.csr.status with haz := true } }
        draws := s.draws + 1
        busReply := some { data := drawOfWidth n (Config.busyRead s.draws), busError := false } }

/-- A host write to `STATUS`, BUSY or not, clears DONE, ERR with ERRCODE, CMD_OVR and HAZ where the written word has a
1 in bit 1, 2, 3 and 4, and changes nothing else; with 0 in those bits it changes nothing (10_state R38, R40 to R43,
60_exceptions R375). The reply 0 to a write is the model's (log entry 9). -/
def Obligations.StatusWriteAcknowledges : Prop :=
  ∀ (s : State) (v : Word),
    s.hostAccess (.write 0x08#32 .word v) =
      { s with
        busReply := some { data := 0, busError := false }
        csr := { s.csr with status := { s.csr.status with
          done := if v.getLsbD 1 then false else s.csr.status.done
          err := if v.getLsbD 2 then false else s.csr.status.err
          errcode := if v.getLsbD 2 then .none else s.csr.status.errcode
          cmdOvr := if v.getLsbD 3 then false else s.csr.status.cmdOvr
          haz := if v.getLsbD 4 then false else s.csr.status.haz } } }

/-! ### Acceptance, refusal, completion -/

/-- Acceptance: a legal word written to `CMD` while not BUSY is kept in `CMD`, clears DONE, ERR, ERRCODE, TKERR and
ATTEMPTS, sets BUSY, and puts the sequencer at the start of the transaction for a DEV operation and at `RUN` for any
other; nothing else changes (60_exceptions R370, R373). The reply 0 to a write is the model's (log entry 9). -/
def Obligations.LegalCommandIsAccepted : Prop :=
  ∀ (s : State) (v : Word), s.csr.status.busy = false → ¬ s.isIllegal v →
    s.hostAccess (.write 0x04#32 .word v) =
      { s with
        csr := { s.csr with
          cmd := v
          status := { s.csr.status with
            done := false, err := false, errcode := .none, tkerr := 0, attempts := 0, busy := true } }
        seq := if 0x30 ≤ v.toNat % 256 then .txn v .start .empty else .run v
        busReply := some { data := 0, busError := false } }

/-- Refusal: a word that the operation map or a bound on an operand makes illegal, written to `CMD` while not BUSY, is
kept in `CMD` and sets DONE, ERR and the code IllegalCommand; nothing else changes (60_exceptions R371). The reply 0
to a write is the model's (log entry 9). -/
def Obligations.IllegalCommandIsRefused : Prop :=
  ∀ (s : State) (v : Word), s.csr.status.busy = false → s.isIllegal v →
    s.hostAccess (.write 0x04#32 .word v) =
      { s with
        csr := { s.csr with
          cmd := v
          status := { s.csr.status with done := true, err := true, errcode := .illegalCommand } }
        busReply := some { data := 0, busError := false } }

/-- The interrupt is `CTRL.IRQ_EN and STATUS.DONE`, and DONE rises only in a step that completes the running operation or
refuses a command (60_exceptions R376, R377, 10_state R40). -/
def Obligations.DoneRisesOnlyAtCompletionOrRefusal : Prop :=
  (∀ s : State, s.irq = true ↔ s.csr.ctrl.irqEn = true ∧ s.csr.status.done = true) ∧
  (∀ s t : State, step s = .next t → s.csr.status.done = false → t.csr.status.done = true →
    (s.seq ≠ .idle ∧ t.seq = .idle) ∨
    ((∃ v rest, s.agenda = .host (.write 0x04#32 .word v) :: rest) ∧ s.csr.status.busy = false ∧
      t.csr.status.errcode = .illegalCommand ∧ t.seq = s.seq))

/-- In `IDLE` the block executes nothing: a step in which neither the host nor the device moves changes nothing but
the agenda, and only a host write to `CMD` takes the block out of `IDLE` (70_reset R404). The agenda, and the step
with none, are the model's (log entries 1 and 2). -/
def Obligations.IdleWaitsForACommandWrite : Prop :=
  ∀ s : State, s.seq = .idle → s.fetched = none ∧
    ((∀ a, s.agenda.head? ≠ some (.host a)) → (∀ b, s.agenda.head? ≠ some (.device b)) →
      step s = .next { s with agenda := s.agenda.tail }) ∧
    ∀ t, step s = .next t → t.seq ≠ .idle →
      ∃ v rest, s.agenda = .host (.write 0x04#32 .word v) :: rest ∧ (t.seq = .run v ∨ t.seq = .txn v .start .empty)

/-! ### Control and BitBuffer operations -/

/-- NOP completes and does nothing else (45_control R350). -/
def Obligations.NopOnlyCompletes : Prop :=
  ∀ s : State, ∃ t, exec .nop s = .next t ∧ s.endsWith t s.csr .none ∧ s.sameMemory t ∧ s.sameStreams t

/-- GETBIT on each track: the bit `BITIDX` of the track, MSB-first, goes to `BITVAL`; an index past the stored length is a
RangeError that leaves `BITVAL`; nothing else changes (40_bitbuffer R160, R163). -/
def Obligations.GetbitReadsOneBit : Prop :=
  ∀ (s : State) (t : Track), ∃ u, exec (.getbit t.field) s = .next u ∧ s.sameMemory u ∧ s.sameStreams u ∧
    (s.csr.bitidx.toNat < 8 * (s.tk t).len.toNat →
      s.endsWith u { s.csr with bitval := s.trackBit t s.csr.bitidx.toNat } .none) ∧
    (8 * (s.tk t).len.toNat ≤ s.csr.bitidx.toNat → s.endsWith u s.csr .rangeError)

/-- SETBIT on each track: the bit `BITIDX` takes `BITVAL[0]`, the other seven bits of its byte and every other byte are
unchanged; an index past the stored length is a RangeError that writes nothing (40_bitbuffer R160, R164). -/
def Obligations.SetbitWritesOneBit : Prop :=
  ∀ (s : State) (t : Track), ∃ u, exec (.setbit t.field) s = .next u ∧ s.sameStreams u ∧
    (s.csr.bitidx.toNat < 8 * (s.tk t).len.toNat →
      s.endsWith u s.csr .none ∧
      s.sameMemoryOutside u (trkAddr t (s.csr.bitidx.toNat / 8)) 1 ∧
      ∀ k < 8, (u.trk t (s.csr.bitidx.toNat / 8)).getLsbD k =
        if k = 7 - s.csr.bitidx.toNat % 8 then s.csr.bitval
        else (s.trk t (s.csr.bitidx.toNat / 8)).getLsbD k) ∧
    (8 * (s.tk t).len.toNat ≤ s.csr.bitidx.toNat → s.endsWith u s.csr .rangeError ∧ s.sameMemory u)

/-- REVBYTE puts `BYTE_IN` with its bits in reverse order into `BYTE_OUT` (40_bitbuffer R161, R165). -/
def Obligations.RevbyteReflectsTheByte : Prop :=
  ∀ s : State, ∃ (t : State) (b : Byte), exec .revbyte s = .next t ∧
    (∀ k < 8, b.getLsbD k = s.csr.byteIn.getLsbD (7 - k)) ∧
    s.endsWith t { s.csr with byteOut := b } .none ∧ s.sameMemory t ∧ s.sameStreams t

/-- REVTRACK on each track: byte j becomes the bit-reversed byte `L - 1 - j`; no other byte changes (40_bitbuffer R162,
R166). -/
def Obligations.RevtrackReversesTheTrack : Prop :=
  ∀ (s : State) (t : Track), ∃ u, exec (.revtrack t.field) s = .next u ∧ s.endsWith u s.csr .none ∧
    s.sameStreams u ∧ s.sameMemoryOutside u (trkAddr t 0) (s.tk t).len.toNat ∧
    ∀ j < (s.tk t).len.toNat, ∀ k < 8,
      (u.trk t j).getLsbD k = (s.trk t ((s.tk t).len.toNat - 1 - j)).getLsbD (7 - k)

/-- UNPACK on each track: the bits of the track go to the bitstring memory, MSB-first in each byte, and their number to
`BSLEN`; no other cell changes (40_bitbuffer R160, R167). -/
def Obligations.UnpackCopiesTheBits : Prop :=
  ∀ (s : State) (t : Track), ∃ u, exec (.unpack t.field) s = .next u ∧
    s.endsWith u { s.csr with bslen := BitVec.ofNat 32 (8 * (s.tk t).len.toNat) } .none ∧
    s.sameStreams u ∧ s.sameMemoryOutside u (bsAddr 0) (8 * (s.tk t).len.toNat) ∧
    ∀ k < 8 * (s.tk t).len.toNat, u.bs k = s.trackBit t k

/-- REVBITS on a bitstring that fits the memory: symbol k becomes symbol `n - 1 - k`; no other cell changes (40_bitbuffer
R168). -/
def Obligations.RevbitsReversesTheBitstring : Prop :=
  ∀ s : State, s.csr.bslen.toNat ≤ s.params.bsMax → ∃ t, exec .revbits s = .next t ∧
    s.endsWith t s.csr .none ∧ s.sameStreams t ∧ s.sameMemoryOutside t (bsAddr 0) s.csr.bslen.toNat ∧
    ∀ k < s.csr.bslen.toNat, t.bs k = s.bs (s.csr.bslen.toNat - 1 - k)

/-- The reversals are involutions: of a byte, of a track (every byte of memory is restored), of the bitstring (40_bitbuffer
R169). -/
def Obligations.ReversalsAreInvolutions : Prop :=
  (∀ b : Byte, rev8 (rev8 b) = b) ∧
  (∀ (s : State) (t : Track), ∃ u v, exec (.revtrack t.field) s = .next u ∧ exec (.revtrack t.field) u = .next v ∧
    s.sameMemory v ∧ (v.tk t).len = (s.tk t).len) ∧
  (∀ s : State, s.csr.bslen.toNat ≤ s.params.bsMax → ∃ u v, exec .revbits s = .next u ∧ exec .revbits u = .next v ∧
    v.csr.bslen = s.csr.bslen ∧ ∀ k < s.csr.bslen.toNat, v.bs k = s.bs k)

/-- REVTRACK reverses the bitstream of the track, and UNPACK after REVTRACK leaves the same symbols as REVBITS after UNPACK
(40_bitbuffer R170). -/
def Obligations.ReversedTrackUnpacksReversed : Prop :=
  ∀ (s : State) (t : Track), s.params.valid = true →
    ∃ u u' v v', exec (.revtrack t.field) s = .next u ∧ exec (.unpack t.field) u = .next u' ∧
      exec (.unpack t.field) s = .next v ∧ exec .revbits v = .next v' ∧
      (∀ i < 8 * (s.tk t).len.toNat, u.trackBit t i = s.trackBit t (8 * (s.tk t).len.toNat - 1 - i)) ∧
      u'.csr.bslen = v'.csr.bslen ∧ ∀ k < 8 * (s.tk t).len.toNat, u'.bs k = v'.bs k

/-! ### Demodulator -/

/-- RECTIFY on samples that fit the memory: every sample, of `P_SAMPLE_W` bits, becomes its magnitude mod
2^`P_SAMPLE_W`, 16 by default; no other byte changes (41_demodulator R191, R192). That the rules of the spec, which
write 16, are read with `P_SAMPLE_W` in its place at another width is the model's (log entry 7). -/
def Obligations.RectifyStoresMagnitudes : Prop :=
  ∀ s : State, s.csr.nsamp.toNat ≤ s.params.nsMax → ∃ t, exec .rectify s = .next t ∧
    s.endsWith t s.csr .none ∧ s.sameStreams t ∧ s.sameMemoryOutside t (smpAddr 0) (2 * s.csr.nsamp.toNat) ∧
    ∀ i < s.csr.nsamp.toNat, (t.smp i).toNat =
      ((s.smp i).setWidth s.params.sampleW).toInt.natAbs % 2 ^ s.params.sampleW

/-- PEAKFIND on samples that fit the memory: `NPEAK` counts the peaks of the runs, which are the indices that
41_demodulator R200 to R202 call peaks; `IVL` holds the distances of successive peaks and `NINT` their number; no
other byte changes. Every interval is at least 2 and the peaks are at most half the samples, rounded up
(41_demodulator R203, R204). The magnitudes are those of samples of `P_SAMPLE_W` bits. That the rules of the spec,
which write 16, are read with `P_SAMPLE_W` in its place at another width is the model's (log entry 7). -/
def Obligations.PeakfindStoresPeakDistances : Prop :=
  ∀ s : State, s.csr.nsamp.toNat ≤ s.params.nsMax → ∃ (t : State) (peaks : List Nat), exec .peakfind s = .next t ∧
    peaks.Pairwise (· < ·) ∧
    (∀ i, i ∈ peaks ↔ isPeak (s.samples.map (mag s.params.sampleW)) s.csr.silThres.toNat i) ∧
    s.endsWith t { s.csr with
      npeak := BitVec.ofNat 32 peaks.length, nint := BitVec.ofNat 32 (peaks.length - 1) } .none ∧
    s.sameStreams t ∧ s.sameMemoryOutside t (ivlAddr 0) (4 * (peaks.length - 1)) ∧
    (∀ k, k + 1 < peaks.length → (t.ivl k).toNat = peaks.getD (k + 1) 0 - peaks.getD k 0 ∧ 2 ≤ (t.ivl k).toNat) ∧
    2 * peaks.length ≤ s.csr.nsamp.toNat + 1

/-- EXTRACT on intervals that acceptance admits: with fewer than two, NoDataError and an empty bitstring; with two, an empty
bitstring; otherwise the bits and the final reference of the loop of 41_demodulator R214, which is positive. No other byte and
no other register changes (41_demodulator R212 to R216). -/
def Obligations.ExtractFollowsItsLoop : Prop :=
  ∀ s : State, s.csr.nint.toNat ≤ s.params.niMax →
    (∀ k < s.csr.nint.toNat, 1 ≤ (s.ivl k).toNat ∧ (s.ivl k).toNat ≤ 0x7FFFFFFF) →
    ∃ t, exec .extract s = .next t ∧ s.sameStreams t ∧
      (s.csr.nint.toNat < 2 → s.endsWith t { s.csr with bslen := 0 } .noDataError ∧ s.sameMemory t) ∧
      (s.csr.nint.toNat = 2 → s.endsWith t { s.csr with bslen := 0 } .none ∧ s.sameMemory t) ∧
      (3 ≤ s.csr.nint.toNat →
        s.endsWith t { s.csr with
          bslen := BitVec.ofNat 32 s.extraction.1.length, zerobl := BitVec.ofNat 32 s.extraction.2 } .none ∧
        t.csr.bslen.toNat = s.extraction.1.length ∧ t.csr.zerobl.toNat = s.extraction.2 ∧ 0 < s.extraction.2 ∧
        s.sameMemoryOutside t (bsAddr 0) s.extraction.1.length ∧
        ∀ k < s.extraction.1.length, t.bs k = s.extraction.1.getD k false)

/-- DEMOD completes, and leaves exactly the state that RECTIFY, PEAKFIND and EXTRACT leave one after the other: with
the parameters of 00_scope R7 the intervals that PEAKFIND stores need no check (41_demodulator R211, R218). That the
rules of the spec, which write 16, are read with `P_SAMPLE_W` in its place at another width is the model's (log entry
7). -/
def Obligations.DemodIsRectifyPeakfindExtract : Prop :=
  ∀ s : State, s.params.valid = true → s.csr.nsamp.toNat ≤ s.params.nsMax →
    ∃ t u v, exec .rectify s = .next t ∧ exec .peakfind t = .next u ∧ exec .extract u = .next v ∧
      exec .demod s = .next v ∧ v.csr.status.errcode ≠ .illegalCommand

/-! ### Track decoder -/

/-- DECODE.ABA and DECODE.IATA on a bitstring that fits the memory, each with the character width, the ASCII base offset,
the sentinel characters and the sentinel bits of its framing written out: the output of the decode datapath, read off by
positions, goes to `DEC` and its length to `DECLEN`; a failure is the first that the datapath meets, `DECLEN` is 0 and
no cell changes (30_encoding R138, 42_track_decoder R230 to R247). -/
def Obligations.DecodeFollowsTheDatapath : Prop :=
  ∀ (s : State) (i : Instr) (f : Framing), (i, f) ∈ framings →
    s.csr.bslen.toNat ≤ s.params.bsMax → ∃ t, exec i s = .next t ∧ s.sameStreams t ∧
      (∀ e, decodeByPositions f s.bitstring = .error e →
        s.endsWith t { s.csr with declen := 0 } e ∧ s.sameMemory t) ∧
      (∀ out, decodeByPositions f s.bitstring = .ok out →
        s.endsWith t { s.csr with declen := BitVec.ofNat 32 out.length } .none ∧
        s.sameMemoryOutside t (decAddr 0) out.length ∧ ∀ k < out.length, t.dec k = out.getD k 0)

/-- Round trip, in either framing: a bitstring built from any leading symbols, an encoded track of data values and any
symbols behind it, in which the start sentinel does not match at any position before the track, across the seam
included, decodes to the start sentinel character, the characters and the end sentinel character (42_track_decoder
R249). -/
def Obligations.EncodedTracksDecode : Prop :=
  ∀ (s : State) (i : Instr) (f : Framing) (lead tail : List Bool) (vals : List Nat),
    (i, f) ∈ framings → s.csr.bslen.toNat ≤ s.params.bsMax →
    (∀ v ∈ vals, isDataValue f v) → s.bitstring = lead ++ encodedTrack f vals ++ tail →
    (∀ k < lead.length, matchesAt s.bitstring k f.startBits = false) →
    ∃ t, exec i s = .next t ∧ t.csr.status.errcode = .none ∧ t.csr.declen.toNat = vals.length + 2 ∧
      ∀ k < vals.length + 2,
        t.dec k = (f.startChar :: (vals.map fun v => BitVec.ofNat 8 (f.base + v)) ++ [f.endChar]).getD k 0

/-- Single-bit corruption: in such a bitstring, one flipped bit of a data chunk gives ParityError, one flipped bit of the LRC
field gives ChecksumError, and `DECLEN` is 0 (42_track_decoder R250, R247). -/
def Obligations.FlippedBitsAreDetected : Prop :=
  ∀ (s : State) (i : Instr) (f : Framing) (lead tail : List Bool) (vals : List Nat) (n : Nat),
    (i, f) ∈ framings → s.csr.bslen.toNat ≤ s.params.bsMax →
    (∀ v ∈ vals, isDataValue f v) → n < (encodedTrack f vals).length →
    s.bitstring = lead ++ (encodedTrack f vals).modify n not ++ tail →
    (∀ k < lead.length, matchesAt s.bitstring k f.startBits = false) →
    ∃ t, exec i s = .next t ∧
      (f.width ≤ n → n < f.width * (vals.length + 1) →
        t.csr.status.errcode = .parityError ∧ t.csr.declen = 0) ∧
      (f.width * (vals.length + 2) ≤ n → t.csr.status.errcode = .checksumError ∧ t.csr.declen = 0)

/-- No compute operation's result depends on a `STATUS` bit: with another `STATUS` at the start, the next state differs only in
the bits of `STATUS` that completion does not write (10_state R64). -/
def Obligations.ComputeOperationsIgnoreStatus : Prop :=
  ∀ (i : Instr) (s : State) (st : Status),
    i ∈ [.nop, .revbyte, .revbits, .rectify, .peakfind, .extract, .demod, .decodeAba, .decodeIata] ∨
      (∃ t : Track, i ∈ [.getbit t.field, .setbit t.field, .revtrack t.field, .unpack t.field]) →
    ∃ t, exec i s = .next t ∧
      exec i (s.withStatus st) = .next (t.withStatus (statusOnCompletion st t.csr.status.errcode))

/-! ### Transactions: events -/

/-- The start of each transaction, with every operand: its first block step offers the ESC of its first command frame,
with the registers it clears cleared and, for a retried read, the first attempt counted; nothing else changes
(43_serial_protocol R270 to R300, 44_retry R342). DEV.XCMD is taken within its bound on `XTXLEN` (60_exceptions R371).
That the start up to the first `Send` is one block step of its own, also taken with an empty agenda, is the model's
(log entries 8 and 2). -/
def Obligations.TransactionsStartWithTheirFrame : Prop :=
  ∀ (s : State) (i : Instr) (cmd : Word) (code : Byte), encode i = .command cmd → firstCode s.params i = some code →
    s.seq = .txn cmd .start .empty → s.event = some .block ∨ s.event = none →
    (∀ arg, i = .devXcmd arg → s.csr.xtxlen.toNat ≤ 8) →
    ∃ t, exec i s = .next t ∧ s.sameMemory t ∧ s.sameStreams t ∧
      s.blocksAt t cmd (.frame (0x1B#8 ++ code) .esc) (localsAtFirstFrame s.csr i) (registersAtFirstFrame s.csr i)

/-- Each wire command frame, in every transaction: the transport takes its ESC and the port offers its code; when the
transport takes the code, it is sent, and the transaction that sent it goes on at its next `Send`, `Recv` or settle
wait. Where there is none, DEV.RESET and DEV.XCMD complete, a retried read begins its attempt, and a read without a
START scan ends its attempt (30_encoding R129, 43_serial_protocol R270 to R300, 44_retry R341, R342). A frame as an
instruction, and the completion in the step that takes the code, are the model's (log entries 13 and 8). -/
def Obligations.WireFramesAreSentByteByByte : Prop :=
  ∀ (s : State) (code : Byte) (i : Instr) (cmd : Word) (l : Locals) (b : FrameByte), (code, i) ∈ commandCodes →
    s.seq = .txn cmd (.frame (0x1B#8 ++ code) b) l → s.event = some .take →
    ∃ t, exec i s = .next t ∧ s.sameMemory t ∧ t.rx = s.rx ∧ t.agenda = s.agenda ∧
      (b = .esc → t.sent = s.sent ++ [0x1B#8] ∧ s.blocksAt t cmd (.frame (0x1B#8 ++ code) .code) l s.csr) ∧
      (b = .code → t.sent = s.sent ++ [code]) ∧
      ∀ j : Instr, b = .code → encode j = .command cmd → s.params.valid = true →
        (∀ p, pointAfterFrame s.params s.csr code j = some p → s.blocksAt t cmd p l s.csr) ∧
        (j = .devReset → s.params.settleTicks = 0 → s.endsWith t s.csr .none) ∧
        (∀ arg, j = .devXcmd arg → s.csr.xtxlen = 0 → s.csr.xrxlen = 0 → s.endsWith t s.csr .none) ∧
        ∀ (rty : Bool) (read : Byte), (j, read) ∈ [(.devReadiso rty, 0x72#8), (.devReadraw rty, 0x6D#8)] →
          (rty = true ∧ code = 0x61#8 → s.params.settleTicks = 0 →
            s.blocksAt t cmd (.frame (0x1B#8 ++ read) .esc) l (clearedForRead s.csr)) ∧
          (¬ (rty = true ∧ code = 0x61#8) → s.params.startScan = 0 → s.attemptEnds t cmd rty l s.csr .framingError)

/-- While a transaction is in a listed command frame, the step of the frame as an instruction is the step of the transaction
itself: the two encoding spaces describe one machine (00_scope R3, 43_serial_protocol R270; log entry 13). -/
def Obligations.WireStepsAreTransactionSteps : Prop :=
  ∀ (s : State) (i j : Instr) (cmd : Word) (w : FrameWord) (b : FrameByte) (l : Locals),
    encode i = .command cmd → firstCode s.params i ≠ none → s.seq = .txn cmd (.frame w b) l →
    decodeFrame w = .ok j → exec j s = exec i s

/-- A transport error at any pending `Send` or `Recv` of any transaction ends it at once with TransportError, in a retry
loop too: nothing is sent or received, and what was written stays written (43_serial_protocol R302, 44_retry R344). The
agenda only carries the event (log entry 1). -/
def Obligations.TransportErrorEndsTheTransaction : Prop :=
  ∀ (s : State) (cmd : Word) (p : Point) (l : Locals) (rest : List Action), s.Consistent → s.seq = .txn cmd p l →
    p.waiting = .send ∨ p.waiting = .recv → s.agenda = .error :: rest →
    ∃ t, step s = .next t ∧ s.endsWith t s.csr .transportError ∧ s.sameMemory t ∧ t.rx = s.rx ∧ t.sent = s.sent ∧
      t.agenda = rest

/-- A transport event or a tick that the sequencer does not wait for changes nothing: no error, byte or tick reaches an idle
block, a compute operation or a position that waits for something else (60_exceptions R381 to R383). A delivery from an empty
stream, which the spec does not have, changes nothing either (log entry 22). -/
def Obligations.UnawaitedEventsChangeNothing : Prop :=
  ∀ (s : State) (a : Action) (rest : List Action), s.Consistent → s.agenda = a :: rest →
    a ∈ [.take, .deliver, .error, .tick] → ¬ s.awaits a → step s = .next { s with agenda := rest }

/-- The settle wait of DEV.RESET and of a retried read counts ticks: every tick but the last is counted and nothing
else changes; after the last, DEV.RESET completes and a retried read begins its attempt (60_exceptions R384,
43_serial_protocol R272, R276, 44_retry R342). That DEV.RESET completes in the very step of the last tick is the
model's (log entry 8). -/
def Obligations.SettleWaitCountsTicks : Prop :=
  ∀ (s : State) (i : Instr) (cmd : Word) (left : Nat) (l : Locals), encode i = .command cmd →
    i ∈ [.devReset, .devReadiso true, .devReadraw true] → s.seq = .txn cmd (.settle left) l →
    s.event = some .tick → ∃ t, exec i s = .next t ∧ s.sameMemory t ∧ s.sameStreams t ∧
      (2 ≤ left → s.blocksAt t cmd (.settle (left - 1)) l s.csr) ∧
      (left ≤ 1 → i = .devReset → s.endsWith t s.csr .none) ∧
      (left ≤ 1 → i = .devReadiso true → s.blocksAt t cmd (.frame 0x1B72#16 .esc) l (clearedForRead s.csr)) ∧
      (left ≤ 1 → i = .devReadraw true → s.blocksAt t cmd (.frame 0x1B6D#16 .esc) l (clearedForRead s.csr))

/-- The START scan and the track headers of a read, byte by byte: START ends the scan; another byte leaves it going
while fewer than `P_START_SCAN` are examined, and after that ends the attempt with FramingError, retried or not; a
header byte that matches goes on, one that does not is a framing error of its track, and the read goes on with the
next track or the trailer (43_serial_protocol R277, R278, R283, 44_retry R342). That a failed scan ends the attempt in
the step of its last byte is the model's (log entry 8). -/
def Obligations.ReadHeadersAreChecked : Prop :=
  ∀ (s : State) (rty : Bool) (i : Instr) (cmd : Word) (p : Point) (l : Locals) (b : Byte) (rest : List Byte),
    encode i = .command cmd → i ∈ [.devReadiso rty, .devReadraw rty] → s.seq = .txn cmd p l →
    s.event = some .deliver → s.rx = b :: rest → 0 < s.params.readTrailerLen →
    ∃ t, exec i s = .next t ∧
      (∀ k, p = .scan k → b = 0x73#8 → s.blocksAt t cmd (.headerEsc .t1) l s.csr) ∧
      (∀ k, p = .scan k → b ≠ 0x73#8 → k + 1 < s.params.startScan → s.blocksAt t cmd (.scan (k + 1)) l s.csr) ∧
      (∀ k, p = .scan k → b ≠ 0x73#8 → s.params.startScan ≤ k + 1 →
        s.attemptEnds t cmd rty l s.csr .framingError) ∧
      (∀ u, p = .headerEsc u → b = 0x1B#8 → s.blocksAt t cmd (.headerNum u) l s.csr) ∧
      (∀ u, p = .headerNum u → b = u.wireNumber → s.blocksAt t cmd (.trackData u) l s.csr) ∧
      (∀ u, p = .headerEsc u ∧ b ≠ 0x1B#8 ∨ p = .headerNum u ∧ b ≠ u.wireNumber →
        s.blocksAt t cmd (pointAfterTrack s.params false u) l (afterTrackError s.csr u)) ∧
      ((∃ k, p = .scan k) ∨ (∃ u, p = .headerEsc u ∨ p = .headerNum u) →
        s.sameMemory t ∧ t.rx = rest ∧ t.sent = s.sent ∧ t.agenda = s.agenda)

/-- A byte of track data: END ends the track; an error delimiter is a framing error, and an ESC one is taken as the
first header byte of the next track; any other byte is counted on the wire, saturating, and stored while the track has
room (43_serial_protocol R276, R279 to R283). The counter has `P_WIRE_W` bits. That the rules of the spec, which write
`sat_16` and 0xFFFF, are read with that width in the place of 16 is the model's (log entry 7). -/
def Obligations.TrackBytesAreCountedAndBounded : Prop :=
  ∀ (s : State) (rty : Bool) (i : Instr) (cmd : Word) (u : Track) (l : Locals) (b : Byte) (rest : List Byte),
    encode i = .command cmd → i ∈ [.devReadiso rty, .devReadraw rty] → s.seq = .txn cmd (.trackData u) l →
    s.event = some .deliver → s.rx = b :: rest → s.params.wireW ≤ 16 → 0 < s.params.readTrailerLen →
    ∃ t, exec i s = .next t ∧ t.rx = rest ∧ t.sent = s.sent ∧ t.agenda = s.agenda ∧
      (b = 0x3F#8 → s.sameMemory t ∧ s.blocksAt t cmd (pointAfterTrack s.params false u) l s.csr) ∧
      (b ≠ 0x3F#8 → b ∈ s.params.errDelims → s.sameMemory t ∧
        s.blocksAt t cmd (pointAfterTrack s.params (decide (b = 0x1B#8)) u) l (afterTrackError s.csr u)) ∧
      (b ≠ 0x3F#8 → b ∉ s.params.errDelims → (s.tk u).cap.toNat ≤ (s.tk u).len.toNat → s.sameMemory t ∧
        s.blocksAt t cmd (.trackData u) l (s.csr.setTk u { s.tk u with
          wire := BitVec.ofNat 16 (min ((s.tk u).wire.toNat + 1) (2 ^ s.params.wireW - 1)) })) ∧
      (b ≠ 0x3F#8 → b ∉ s.params.errDelims → (s.tk u).len.toNat < (s.tk u).cap.toNat →
        t.trk u (s.tk u).len.toNat = b ∧ s.sameMemoryOutside t (trkAddr u (s.tk u).len.toNat) 1 ∧
        s.blocksAt t cmd (.trackData u) l (s.csr.setTk u { s.tk u with
          len := BitVec.ofNat 8 ((s.tk u).len.toNat + 1)
          wire := BitVec.ofNat 16 (min ((s.tk u).wire.toNat + 1) (2 ^ s.params.wireW - 1)) }))

/-- The trailer bytes of a read, with RTY or without, a track error recorded or not. Each is appended to the response.
One before the last is not checked: the read waits for the next with one byte less to come, and nothing else changes.
The last becomes LASTSTAT and gives the result of the attempt, DeviceStatusError before FramingError; with RTY = 0 that
ends the operation. With RTY = 1 success ends it, and so does any result of attempt `MAX_ATT`, unless that is 0;
otherwise the next attempt is counted and its device reset offered (43_serial_protocol R271, R276, R284, R285, 44_retry
R341 to R343). That the operation ends in the step of the last trailer byte is the model's (log entry 8). -/
def Obligations.LastTrailerByteDecidesTheRead : Prop :=
  ∀ (s : State) (rty : Bool) (i : Instr) (cmd : Word) (left : Nat) (l : Locals) (b : Byte) (rest : List Byte)
    (e : ErrCode) (c : Csr),
    encode i = .command cmd → i ∈ [.devReadiso rty, .devReadraw rty] → s.seq = .txn cmd (.reply left) l →
    s.event = some .deliver → s.rx = b :: rest → s.csr.resplen.toNat < 16 →
    c = { s.csr with
      respb := s.csr.respb.setIfInBounds s.csr.resplen.toNat b
      resplen := BitVec.ofNat 5 (s.csr.resplen.toNat + 1) } →
    e = (if b ≠ 0x30#8 then .deviceStatusError else if s.csr.status.tkerr ≠ 0 then .framingError else .none) →
    ∃ t, exec i s = .next t ∧ s.sameMemory t ∧ t.rx = rest ∧ t.sent = s.sent ∧ t.agenda = s.agenda ∧
      (2 ≤ left → s.blocksAt t cmd (.reply (left - 1)) l c) ∧
      (left = 1 → s.attemptEnds t cmd rty l { c with status := { c.status with laststat := b } } e)

/-- The streams are ordered and lose nothing. A byte joins the end of the bytes sent only when the transport takes it
at a `Send`, and it is the byte that the `Send` offers; the stream toward the block loses its first byte only when it
is delivered to a `Recv`, and gains the device's byte at its end; every other step leaves both as they are. In a
consistent state every byte taken at a `Send` is sent and every byte delivered to a `Recv` is received (20_memory
R109, 60_exceptions R381). -/
def Obligations.StreamsKeepTheirOrder : Prop :=
  ∀ s t : State, step s = .next t →
    (t.sent = s.sent ∨ ∃ cmd p l, s.seq = .txn cmd p l ∧ p.waiting = .send ∧ s.agenda.head? = some .take ∧
      t.sent = s.sent ++ [s.offered p]) ∧
    (t.rx = s.rx ∨ (s.waiting = .recv ∧ s.agenda.head? = some .deliver ∧ ∃ b, s.rx = b :: t.rx) ∨
      ∃ b, s.agenda.head? = some (.device b) ∧ t.rx = s.rx ++ [b]) ∧
    (s.Consistent → ∀ cmd p l, s.seq = .txn cmd p l → p.waiting = .send → s.agenda.head? = some .take →
      t.sent = s.sent ++ [s.offered p]) ∧
    (s.Consistent → s.waiting = .recv → s.agenda.head? = some .deliver → t.rx = s.rx.tail)

/-! ### Transactions: whole runs -/

/-- DEV.RESET sends `1B 61`, waits `P_SETTLE_TICKS` ticks and completes; nothing else changes (43_serial_protocol R272).
The agenda that lists the moves and the number of steps they take are the model's (log entries 1 and 8). -/
def Obligations.DeviceResetRunsToCompletion : Prop :=
  ∀ (s : State) (rest : List Action), s.seq = .txn 0x00000030#32 .start .empty →
    s.agenda = [.block, .take, .take] ++ List.replicate s.params.settleTicks .tick ++ rest →
    ∃ t, runs (3 + s.params.settleTicks) s = .next t ∧ s.endsWith t s.csr .none ∧ s.sameMemory t ∧
      t.sent = s.sent ++ [0x1B#8, 0x61#8] ∧ t.rx = s.rx ∧ t.agenda = rest

/-- DEV.COMMTEST sends `1B 65`, discards every byte up to the first `P_COMMTEST_OK` and completes there; nothing else
changes (43_serial_protocol R273, 70_reset R417). The agenda that lists the moves and the number of steps they take are
the model's (log entries 1 and 8). -/
def Obligations.CommunicationTestResynchronises : Prop :=
  ∀ (s : State) (junk more : List Byte) (rest : List Action), s.seq = .txn 0x00000031#32 .start .empty →
    s.params.commtestOk ∉ junk → s.rx = junk ++ s.params.commtestOk :: more →
    s.agenda = [.block, .take, .take] ++ List.replicate (junk.length + 1) .deliver ++ rest →
    ∃ t, runs (3 + (junk.length + 1)) s = .next t ∧ s.endsWith t s.csr .none ∧ s.sameMemory t ∧
      t.sent = s.sent ++ [0x1B#8, 0x65#8] ∧ t.rx = more ∧ t.agenda = rest

/-- DEV.WRITEISO and DEV.WRITERAW send the write frame of the three tracks, receive the confirmation into the response
buffer and end by its last byte; nothing else changes (30_encoding R132, 43_serial_protocol R290 to R293). The agenda
that lists the moves and the number of steps they take are the model's (log entries 1 and 8). -/
def Obligations.WriteTransactionsSendTheFrame : Prop :=
  ∀ (s : State) (raw : Bool) (conf more : List Byte) (rest : List Action),
    s.seq = .txn (if raw then 0x00000035#32 else 0x00000034#32) .start .empty →
    conf.length = s.params.wconfLen → 1 ≤ conf.length → conf.length ≤ 16 → s.rx = conf ++ more →
    s.agenda = .block :: List.replicate (s.writeFrame raw).length .take ++ List.replicate conf.length .deliver ++ rest →
    ∃ t, runs (1 + (s.writeFrame raw).length + conf.length) s = .next t ∧
      s.responseIs t conf ∧
      s.endsWith t { s.csr with
        resplen := t.csr.resplen, respb := t.csr.respb
        status := { s.csr.status with laststat := conf.getLastD 0 } } (statusVerdict (conf.getLastD 0)) ∧
      s.sameMemory t ∧ t.sent = s.sent ++ s.writeFrame raw ∧ t.rx = more ∧ t.agenda = rest

/-- DEV.ERASE sends `1B 63 mask` for every mask, receives the status into the response buffer and ends by its last byte;
nothing else changes (43_serial_protocol R294). The agenda that lists the moves and the number of steps they take are
the model's (log entries 1 and 8). -/
def Obligations.EraseSendsItsMask : Prop :=
  ∀ (s : State) (mask : Byte) (resp more : List Byte) (rest : List Action),
    s.seq = .txn (commandWord mask false 0 0x36) .start .empty →
    resp.length = s.params.eraseLen → 1 ≤ resp.length → resp.length ≤ 16 → s.rx = resp ++ more →
    s.agenda = [.block, .take, .take, .take] ++ List.replicate resp.length .deliver ++ rest →
    ∃ t, runs (4 + resp.length) s = .next t ∧ s.responseIs t resp ∧
      s.endsWith t { s.csr with
        resplen := t.csr.resplen, respb := t.csr.respb
        status := { s.csr.status with laststat := resp.getLastD 0 } } (statusVerdict (resp.getLastD 0)) ∧
      s.sameMemory t ∧ t.sent = s.sent ++ [0x1B#8, 0x63#8, mask] ∧ t.rx = more ∧ t.agenda = rest

/-- DEV.MODEL, DEV.FIRMWARE and DEV.LZQUERY send their command, receive their fixed-size response into the response
buffer and check its first byte, DEV.MODEL also its second against the legal model bytes; LASTSTAT and everything else
are unchanged (43_serial_protocol R295 to R298). The agenda that lists the moves and the number of steps they take are
the model's (log entries 1 and 8). -/
def Obligations.QueriesCheckTheirResponse : Prop :=
  ∀ (s : State) (cmd : Word) (code : Byte) (n : Nat) (resp more : List Byte) (rest : List Action),
    (cmd, code, n) ∈ [(0x00000037#32, 0x74#8, s.params.modelLen), (0x00000038#32, 0x76#8, s.params.fwLen),
      (0x00000039#32, s.params.lzCmd, s.params.lzLen)] →
    s.seq = .txn cmd .start .empty → resp.length = n → 1 ≤ n → n ≤ 16 → (cmd = 0x00000037#32 → 2 ≤ n) →
    s.rx = resp ++ more →
    s.agenda = [.block, .take, .take] ++ List.replicate n .deliver ++ rest →
    ∃ t, runs (3 + n) s = .next t ∧ s.responseIs t resp ∧
      s.endsWith t { s.csr with resplen := t.csr.resplen, respb := t.csr.respb }
        (if resp.getD 0 0 ≠ 0x1B#8 then .framingError
          else if cmd = 0x00000037#32 ∧ resp.getD 1 0 ∉ s.params.modelSet then .framingError
          else .none) ∧
      s.sameMemory t ∧ t.sent = s.sent ++ [0x1B#8, code] ∧ t.rx = more ∧ t.agenda = rest

/-- DEV.XCMD, for every code, sends the code and `XTXLEN` payload bytes, receives `XRXLEN` bytes into the response
buffer, and checks the last as a status byte only when XCHK is 1 and there is one; nothing else changes
(43_serial_protocol R300). The agenda that lists the moves and the number of steps they take are the model's (log
entries 1 and 8). -/
def Obligations.GenericCommandSendsItsPayload : Prop :=
  ∀ (s : State) (code : Byte) (resp more : List Byte) (rest : List Action),
    s.seq = .txn (commandWord code false 0 0x3A) .start .empty → s.csr.xtxlen.toNat ≤ 8 →
    resp.length = s.csr.xrxlen.toNat → s.rx = resp ++ more →
    s.agenda = [.block, .take, .take] ++ List.replicate s.csr.xtxlen.toNat .take ++
      List.replicate resp.length .deliver ++ rest →
    ∃ t, runs (3 + s.csr.xtxlen.toNat + resp.length) s = .next t ∧ s.responseIs t resp ∧
      s.endsWith t { s.csr with
        resplen := t.csr.resplen, respb := t.csr.respb
        status := { s.csr.status with
          laststat := if s.csr.xchk = true ∧ resp ≠ [] then resp.getLastD 0 else s.csr.status.laststat } }
        (if s.csr.xchk = true ∧ resp ≠ [] then statusVerdict (resp.getLastD 0) else .none) ∧
      s.sameMemory t ∧ t.sent = s.sent ++ [0x1B#8, code] ++ s.payload ∧ t.rx = more ∧ t.agenda = rest

/-- DEV.READISO and DEV.READRAW without retry on a well-formed response: the bytes before START are discarded, each
track is stored up to its capacity and counted whole, the trailer goes to the response buffer and its last byte
decides; nothing else changes (30_encoding R131, 43_serial_protocol R274 to R285). The agenda that lists the moves and
the number of steps they take are the model's (log entries 1 and 8). The counter has `P_WIRE_W` bits. That the rules
of the spec, which write `sat_16` and 0xFFFF, are read with that width in the place of 16 is the model's (log entry
7). -/
def Obligations.GoodReadStoresTheTracks : Prop :=
  ∀ (s : State) (cmd : Word) (code : Byte) (pre d1 d2 d3 trailer more : List Byte) (rest : List Action)
    (resp : List Byte),
    (cmd, code) ∈ [(0x00000032#32, 0x72#8), (0x00000033#32, 0x6D#8)] → s.seq = .txn cmd .start .empty →
    s.params.wireW ≤ 16 → pre.length < s.params.startScan → 0x73#8 ∉ pre →
    isTrackData s.params d1 → isTrackData s.params d2 → isTrackData s.params d3 →
    trailer.length = s.params.readTrailerLen → 1 ≤ trailer.length → trailer.length ≤ 16 →
    resp = pre ++ [0x73#8] ++ wireTrack .t1 d1 ++ wireTrack .t2 d2 ++ wireTrack .t3 d3 ++ trailer →
    s.rx = resp ++ more → s.agenda = [.block, .take, .take] ++ List.replicate resp.length .deliver ++ rest →
    ∃ t, runs (3 + resp.length) s = .next t ∧ s.responseIs t trailer ∧
      s.endsWith t { s.csr with
        tk1 := tkAfterGoodTrack s.params s.csr.tk1 d1, tk2 := tkAfterGoodTrack s.params s.csr.tk2 d2
        tk3 := tkAfterGoodTrack s.params s.csr.tk3 d3
        resplen := t.csr.resplen, respb := t.csr.respb
        status := { s.csr.status with tkerr := 0, laststat := trailer.getLastD 0 } }
        (statusVerdict (trailer.getLastD 0)) ∧
      t.sent = s.sent ++ [0x1B#8, code] ∧ t.rx = more ∧ t.agenda = rest ∧
      (∀ k < (t.tk .t1).len.toNat, t.trk .t1 k = d1.getD k 0) ∧
      (∀ k < (t.tk .t2).len.toNat, t.trk .t2 k = d2.getD k 0) ∧
      (∀ k < (t.tk .t3).len.toNat, t.trk .t3 k = d3.getD k 0) ∧
      (∀ a, (∀ u : Track, a < trkAddr u 0 ∨ trkAddr u (t.tk u).len.toNat ≤ a) → t.readByte a = s.readByte a)

/-- The retry loop around a read whose START scan fails in every attempt: after `k` attempts, with `MAX_ATT` 0 or
greater than `k`, attempt `k + 1` is counted (saturating at 255) and its device reset offered; after `MAX_ATT` attempts
the operation ends with FramingError. Every attempt sends the device reset, waits the settle ticks and sends the read
(44_retry R341, R342, R346, 43_serial_protocol R277). The agenda that lists the moves and the number of steps they take
are the model's (log entries 1 and 8). -/
def Obligations.FailingReadsAreRetriedUpToTheLimit : Prop :=
  ∀ (s : State) (cmd : Word) (code : Byte) (k : Nat) (bytes more : List Byte) (rest : List Action)
    (attempt : List Action),
    (cmd, code) ∈ [(0x00001032#32, 0x72#8), (0x00001033#32, 0x6D#8)] → s.seq = .txn cmd .start .empty → 1 ≤ k →
    s.csr.ctrl.maxAtt = 0 ∨ k ≤ s.csr.ctrl.maxAtt.toNat →
    0x73#8 ∉ bytes → bytes.length = k * s.params.startScan → s.rx = bytes ++ more →
    attempt = [.take, .take] ++ List.replicate s.params.settleTicks .tick ++ [.take, .take] ++
      List.replicate s.params.startScan .deliver →
    s.agenda = .block :: (List.replicate k attempt).flatten ++ rest →
    ∃ t, runs (1 + k * attempt.length) s = .next t ∧ s.sameMemory t ∧ t.rx = more ∧ t.agenda = rest ∧
      t.sent = s.sent ++ (List.replicate k [0x1B#8, 0x61#8, 0x1B#8, code]).flatten ∧
      (k = s.csr.ctrl.maxAtt.toNat → s.endsWith t { clearedForRead s.csr with
        status := { s.csr.status with tkerr := 0, attempts := BitVec.ofNat 8 k } } .framingError) ∧
      (k ≠ s.csr.ctrl.maxAtt.toNat →
        s.blocksAt t cmd (.frame 0x1B61#16 .esc) { attempts := k + 1, maxAtt := s.csr.ctrl.maxAtt }
          { clearedForRead s.csr with
            status := { s.csr.status with tkerr := 0, attempts := BitVec.ofNat 8 (min (k + 1) 255) } })

end
end

