-- ==== Sys2Proof/Laws/State.lean ====
section
/-! SUPPORT. What each shared update leaves in each field of State, as simp lemmas: no later proof unfolds a record
update for them. -/
namespace Sys2Proof.Machine

section Updates
variable (s : State) (c : Csr) (st : Status) (t u : Track) (r : TrackRegs) (a : Nat) (bs : List Byte) (b : Byte)

@[simp] theorem withCsr_csr : (s.withCsr c).csr = c := rfl
@[simp] theorem withCsr_params : (s.withCsr c).params = s.params := rfl
@[simp] theorem withCsr_mem : (s.withCsr c).mem = s.mem := rfl
@[simp] theorem withCsr_seq : (s.withCsr c).seq = s.seq := rfl
@[simp] theorem withCsr_rx : (s.withCsr c).rx = s.rx := rfl
@[simp] theorem withCsr_sent : (s.withCsr c).sent = s.sent := rfl
@[simp] theorem withCsr_busReply : (s.withCsr c).busReply = s.busReply := rfl
@[simp] theorem withCsr_draws : (s.withCsr c).draws = s.draws := rfl
@[simp] theorem withCsr_agenda : (s.withCsr c).agenda = s.agenda := rfl
@[simp] theorem withCsr_withCsr (d : Csr) : (s.withCsr c).withCsr d = s.withCsr d := rfl

@[simp] theorem withStatus_csr : (s.withStatus st).csr = { s.csr with status := st } := rfl
@[simp] theorem withStatus_params : (s.withStatus st).params = s.params := rfl
@[simp] theorem withStatus_mem : (s.withStatus st).mem = s.mem := rfl
@[simp] theorem withStatus_seq : (s.withStatus st).seq = s.seq := rfl
@[simp] theorem withStatus_rx : (s.withStatus st).rx = s.rx := rfl
@[simp] theorem withStatus_sent : (s.withStatus st).sent = s.sent := rfl
@[simp] theorem withStatus_busReply : (s.withStatus st).busReply = s.busReply := rfl
@[simp] theorem withStatus_draws : (s.withStatus st).draws = s.draws := rfl
@[simp] theorem withStatus_agenda : (s.withStatus st).agenda = s.agenda := rfl

@[simp] theorem writeBytes_csr : (s.writeBytes a bs).csr = s.csr := rfl
@[simp] theorem writeBytes_params : (s.writeBytes a bs).params = s.params := rfl
@[simp] theorem writeBytes_mem : (s.writeBytes a bs).mem = s.mem.storeAll a bs := rfl
@[simp] theorem writeBytes_seq : (s.writeBytes a bs).seq = s.seq := rfl
@[simp] theorem writeBytes_rx : (s.writeBytes a bs).rx = s.rx := rfl
@[simp] theorem writeBytes_sent : (s.writeBytes a bs).sent = s.sent := rfl
@[simp] theorem writeBytes_busReply : (s.writeBytes a bs).busReply = s.busReply := rfl
@[simp] theorem writeBytes_draws : (s.writeBytes a bs).draws = s.draws := rfl
@[simp] theorem writeBytes_agenda : (s.writeBytes a bs).agenda = s.agenda := rfl

@[simp] theorem sendByte_csr : (s.sendByte b).csr = s.csr := rfl
@[simp] theorem sendByte_params : (s.sendByte b).params = s.params := rfl
@[simp] theorem sendByte_mem : (s.sendByte b).mem = s.mem := rfl
@[simp] theorem sendByte_seq : (s.sendByte b).seq = s.seq := rfl
@[simp] theorem sendByte_rx : (s.sendByte b).rx = s.rx := rfl
@[simp] theorem sendByte_sent : (s.sendByte b).sent = s.sent ++ [b] := rfl
@[simp] theorem sendByte_busReply : (s.sendByte b).busReply = s.busReply := rfl
@[simp] theorem sendByte_draws : (s.sendByte b).draws = s.draws := rfl
@[simp] theorem sendByte_agenda : (s.sendByte b).agenda = s.agenda := rfl

@[simp] theorem pop_csr : s.pop.csr = s.csr := rfl
@[simp] theorem pop_params : s.pop.params = s.params := rfl
@[simp] theorem pop_mem : s.pop.mem = s.mem := rfl
@[simp] theorem pop_seq : s.pop.seq = s.seq := rfl
@[simp] theorem pop_rx : s.pop.rx = s.rx := rfl
@[simp] theorem pop_sent : s.pop.sent = s.sent := rfl
@[simp] theorem pop_busReply : s.pop.busReply = s.busReply := rfl
@[simp] theorem pop_draws : s.pop.draws = s.draws := rfl
@[simp] theorem pop_agenda : s.pop.agenda = s.agenda.tail := rfl

variable (e : ErrCode)

@[simp] theorem completeWith_csr :
    (s.completeWith e).csr = { s.csr with status := s.csr.status.completed e } := rfl
@[simp] theorem completeWith_params : (s.completeWith e).params = s.params := rfl
@[simp] theorem completeWith_mem : (s.completeWith e).mem = s.mem := rfl
@[simp] theorem completeWith_seq : (s.completeWith e).seq = .idle := rfl
@[simp] theorem completeWith_rx : (s.completeWith e).rx = s.rx := rfl
@[simp] theorem completeWith_sent : (s.completeWith e).sent = s.sent := rfl
@[simp] theorem completeWith_busReply : (s.completeWith e).busReply = s.busReply := rfl
@[simp] theorem completeWith_draws : (s.completeWith e).draws = s.draws := rfl
@[simp] theorem completeWith_agenda : (s.completeWith e).agenda = s.agenda := rfl

@[simp] theorem tk_setTk_same : (c.setTk t r).tk t = r := by cases t <;> rfl
theorem tk_setTk_other (h : u ≠ t) : (c.setTk t r).tk u = c.tk u := by
  cases t <;> cases u <;> first | rfl | exact absurd rfl h
@[simp] theorem setTk_status : (c.setTk t r).status = c.status := by cases t <;> rfl
@[simp] theorem setTk_resplen : (c.setTk t r).resplen = c.resplen := by cases t <;> rfl
@[simp] theorem setTk_respb : (c.setTk t r).respb = c.respb := by cases t <;> rfl
@[simp] theorem setTk_cmd : (c.setTk t r).cmd = c.cmd := by cases t <;> rfl
@[simp] theorem setTk_ctrl : (c.setTk t r).ctrl = c.ctrl := by cases t <;> rfl

@[simp] theorem State.setTk_csr : (s.setTk t r).csr = s.csr.setTk t r := rfl
@[simp] theorem State.setTk_params : (s.setTk t r).params = s.params := rfl
@[simp] theorem State.setTk_mem : (s.setTk t r).mem = s.mem := rfl
@[simp] theorem State.setTk_seq : (s.setTk t r).seq = s.seq := rfl
@[simp] theorem State.setTk_rx : (s.setTk t r).rx = s.rx := rfl
@[simp] theorem State.setTk_sent : (s.setTk t r).sent = s.sent := rfl
@[simp] theorem State.setTk_agenda : (s.setTk t r).agenda = s.agenda := rfl
end Updates

section Positions
variable (s : State) (p q : Point) (l : Locals)

/-- A position outside a transaction is no position. -/
theorem moveTo_of_txn {cmd : Word} (h : s.seq = .txn cmd q l) :
    s.moveTo p = { s.withStatus (s.csr.status.waitingFor p.waiting) with seq := .txn cmd p l } := by
  simp [State.moveTo, h]

@[simp] theorem moveTo_params : (s.moveTo p).params = s.params := by unfold State.moveTo; split <;> rfl
@[simp] theorem moveTo_mem : (s.moveTo p).mem = s.mem := by unfold State.moveTo; split <;> rfl
@[simp] theorem moveTo_rx : (s.moveTo p).rx = s.rx := by unfold State.moveTo; split <;> rfl
@[simp] theorem moveTo_sent : (s.moveTo p).sent = s.sent := by unfold State.moveTo; split <;> rfl
@[simp] theorem moveTo_busReply : (s.moveTo p).busReply = s.busReply := by unfold State.moveTo; split <;> rfl
@[simp] theorem moveTo_draws : (s.moveTo p).draws = s.draws := by unfold State.moveTo; split <;> rfl
@[simp] theorem moveTo_agenda : (s.moveTo p).agenda = s.agenda := by unfold State.moveTo; split <;> rfl

@[simp] theorem setLocals_csr : (s.setLocals l).csr = s.csr := by unfold State.setLocals; split <;> rfl
@[simp] theorem setLocals_params : (s.setLocals l).params = s.params := by unfold State.setLocals; split <;> rfl
@[simp] theorem setLocals_mem : (s.setLocals l).mem = s.mem := by unfold State.setLocals; split <;> rfl
@[simp] theorem setLocals_rx : (s.setLocals l).rx = s.rx := by unfold State.setLocals; split <;> rfl
@[simp] theorem setLocals_sent : (s.setLocals l).sent = s.sent := by unfold State.setLocals; split <;> rfl
@[simp] theorem setLocals_busReply : (s.setLocals l).busReply = s.busReply := by
  unfold State.setLocals; split <;> rfl
@[simp] theorem setLocals_draws : (s.setLocals l).draws = s.draws := by unfold State.setLocals; split <;> rfl
@[simp] theorem setLocals_agenda : (s.setLocals l).agenda = s.agenda := by unfold State.setLocals; split <;> rfl

/-- A transaction that has begun goes on at its position. -/
theorem inTransaction_of_txn {cmd cmd' : Word} (h : s.seq = .txn cmd p l) : s.inTransaction cmd' = s := by
  simp [State.inTransaction, h]
end Positions

end Sys2Proof.Machine
end

