-- ==== Sys2Proof/Laws/Bits.lean ====
section
/-! SUPPORT. The laws of the bit arithmetic: what each bit of a reversed or updated byte is, and that a cell read from
the bytes it was stored as is the cell. -/
namespace Sys2Proof.Machine

/-- 40_bitbuffer R161, bit by bit. -/
theorem rev8_getLsbD (b : Byte) (k : Nat) (h : k < 8) : (rev8 b).getLsbD k = b.getLsbD (7 - k) := by
  have : ∀ x : Fin 256, ∀ j : Fin 8,
      (rev8 (BitVec.ofFin x)).getLsbD j = (BitVec.ofFin (w := 8) x).getLsbD (7 - j) := by decide +kernel
  exact this b.toFin ⟨k, h⟩

/-- The bit a mask selects takes the value, every other bit is kept. -/
theorem setBitMsbFirst_getLsbD (b : Byte) (i k : Nat) (v : Bool) (h : k < 8) :
    (setBitMsbFirst b i v).getLsbD k = if k = 7 - i % 8 then v else b.getLsbD k := by
  by_cases hk : k = 7 - i % 8
  · subst hk
    cases v <;> simp [setBitMsbFirst, h]
  · have hm : (1#8 <<< (7 - i % 8)).getLsbD k = false := by
      simp only [BitVec.getLsbD_shiftLeft, BitVec.getLsbD_one]
      by_cases hlt : k < 7 - i % 8
      · simp [hlt]
      · have : ¬ k - (7 - i % 8) = 0 := by omega
        simp [this]
    cases v <;>
      simp only [setBitMsbFirst, Bool.false_eq_true, ↓reduceIte, BitVec.getLsbD_or, BitVec.getLsbD_and,
        BitVec.getLsbD_not, hm, hk] <;> simp [h]

@[simp] theorem bitsOfByte_length (b : Byte) : (bitsOfByte b).length = 8 := by simp [bitsOfByte]

theorem bitsOfByte_getElem (b : Byte) (k : Nat) (h : k < (bitsOfByte b).length) :
    (bitsOfByte b)[k] = b.getLsbD (7 - k) := by
  have h8 : k < 8 := by simpa using h
  simp [bitsOfByte, bitMsbFirst, Nat.mod_eq_of_lt h8]

@[simp] theorem bytesOfHalf_length (v : BitVec 16) : (bytesOfHalf v).length = 2 := rfl
@[simp] theorem bytesOfWord_length (v : Word) : (bytesOfWord v).length = 4 := rfl

/-- A 16-bit cell is what its two bytes make. -/
theorem halfOfBytes_bytes (v : BitVec 16) : halfOfBytes (v.extractLsb' 0 8) (v.extractLsb' 8 8) = v := by
  apply BitVec.eq_of_getLsbD_eq
  intro i hi
  simp only [halfOfBytes, BitVec.getLsbD_append, BitVec.getLsbD_extractLsb']
  by_cases h : i < 8
  · simp [h]
  · have h8 : i - 8 < 8 := by omega
    have he : 8 + (i - 8) = i := by omega
    simp [h, h8, he]

/-- A 32-bit cell is what its four bytes make. -/
theorem wordOfBytes_bytes (v : Word) :
    wordOfBytes (v.extractLsb' 0 8) (v.extractLsb' 8 8) (v.extractLsb' 16 8) (v.extractLsb' 24 8) = v := by
  apply BitVec.eq_of_getLsbD_eq
  intro i hi
  simp only [wordOfBytes, BitVec.getLsbD_append, BitVec.getLsbD_extractLsb']
  by_cases h0 : i < 8
  · simp [h0]
  · by_cases h1 : i - 8 < 8
    · have he : 8 + (i - 8) = i := by omega
      simp [h0, h1, he]
    · by_cases h2 : i - 8 - 8 < 8
      · have he : 16 + (i - 8 - 8) = i := by omega
        simp [h0, h1, h2, he]
      · have h3 : i - 8 - 8 - 8 < 8 := by omega
        have he : 24 + (i - 8 - 8 - 8) = i := by omega
        simp [h0, h1, h2, h3, he]

@[simp] theorem byteOfBit_zero (b : Bool) : (byteOfBit b)[0] = b := by cases b <;> rfl

/-- 00_scope R9, `sat_N` as a number. -/
theorem saturate_toNat (n v : Nat) : (saturate n v).toNat = min v (2 ^ n - 1) := by
  have : 0 < 2 ^ n := Nat.two_pow_pos n
  have h : min v (2 ^ n - 1) < 2 ^ n := by omega
  simp [saturate, BitVec.toNat_ofNat, Nat.mod_eq_of_lt h]

/-! ### Samples of `w` bits -/

/-- The sample a cell holds, as a number: its low `w` bits. -/
@[simp] theorem sampleCell_toNat (w : Nat) (c : BitVec 16) : (sampleCell w c).toNat = c.toNat % 2 ^ w := by
  have h : c.toNat % 2 ^ w ≤ c.toNat := Nat.mod_le _ _
  have hc := c.isLt
  simp only [sampleCell, BitVec.toNat_setWidth]
  exact Nat.mod_eq_of_lt (by omega)

@[simp] theorem sampleCell_idem (w : Nat) (c : BitVec 16) : sampleCell w (sampleCell w c) = sampleCell w c :=
  BitVec.eq_of_toNat_eq (by simp)

/-- At the default width a cell is its sample. -/
@[simp] theorem sampleCell_sixteen (c : BitVec 16) : sampleCell 16 c = c := by simp [sampleCell]

@[simp] theorem mag_sampleCell (w : Nat) (c : BitVec 16) : mag w (sampleCell w c) = mag w c := by
  have : (sampleCell w c).setWidth w = c.setWidth w := BitVec.eq_of_toNat_eq (by simp)
  simp only [mag, this]

/-- 41_demodulator R191: a magnitude is at most `2^(w-1)`, 32768 for 16 bits. -/
theorem mag_le (w : Nat) (c : BitVec 16) : mag w c ≤ 2 ^ (w - 1) := by
  have h := BitVec.toInt_lt (x := c.setWidth w)
  have h' := BitVec.le_toInt (x := c.setWidth w)
  have e : ((2 ^ (w - 1) : Nat) : Int) = 2 ^ (w - 1) := by norm_cast
  unfold mag
  omega

/-- A magnitude fits a 16-bit cell. -/
theorem mag_lt (w : Nat) (c : BitVec 16) : mag w c < 2 ^ 16 := by
  by_cases hw : w ≤ 16
  · have h1 := mag_le w c
    have h2 : 2 ^ (w - 1) ≤ 2 ^ 15 := Nat.pow_le_pow_right (by omega) (by omega)
    omega
  · have hc := c.isLt
    have h17 : 2 ^ 17 ≤ 2 ^ w := Nat.pow_le_pow_right (by omega) (by omega)
    have hn : (c.setWidth w).toNat = c.toNat := by
      simp only [BitVec.toNat_setWidth]
      exact Nat.mod_eq_of_lt (by omega)
    have hi : (c.setWidth w).toInt = c.toNat := by
      rw [BitVec.toInt_eq_toNat_of_lt (by omega), hn]
    rw [mag, hi]
    omega

theorem rectified_toNat (w : Nat) (c : BitVec 16) : (rectified w c).toNat = mag w c % 2 ^ w := by
  have h : mag w c % 2 ^ w ≤ mag w c := Nat.mod_le _ _
  have h' := mag_lt w c
  simp only [rectified, BitVec.toNat_ofNat]
  exact Nat.mod_eq_of_lt (by omega)

/-- What RECTIFY stores is a sample of `w` bits. -/
@[simp] theorem sampleCell_rectified (w : Nat) (c : BitVec 16) : sampleCell w (rectified w c) = rectified w c :=
  BitVec.eq_of_toNat_eq (by simp [rectified_toNat])

end Sys2Proof.Machine
end

