-- ==== Sys2Proof/Laws/Memory.lean ====
section
/-! SUPPORT. The laws of memory: a read after a write, and the canonical form that every memory operation keeps. -/
namespace Sys2Proof.Machine

theorem byteAt_store_self (m : Memory) (a : Nat) (b : Byte) : (m.store a b).byteAt a = some b := by
  induction m with
  | nil => simp [Memory.store, Memory.byteAt]
  | cons x m ih =>
    obtain ⟨k, v⟩ := x
    unfold Memory.store
    split
    · simp [Memory.byteAt]
    · split
      · simp [Memory.byteAt]
      · rename_i h1 h2
        have : k ≠ a := fun h => h2 h.symm
        simp [Memory.byteAt, this, ih]

theorem byteAt_store_other (m : Memory) (a c : Nat) (b : Byte) (h : c ≠ a) :
    (m.store a b).byteAt c = m.byteAt c := by
  induction m with
  | nil => simp [Memory.store, Memory.byteAt, Ne.symm h]
  | cons x m ih =>
    obtain ⟨k, v⟩ := x
    unfold Memory.store
    split
    · simp [Memory.byteAt, Ne.symm h]
    · split
      · rename_i h1 h2
        subst h2
        simp [Memory.byteAt, Ne.symm h]
      · simp [Memory.byteAt, ih]

/-- Every address of a memory after a store is the stored one or was there. -/
theorem mem_store {m : Memory} {a : Nat} {b : Byte} {x : Nat × Byte} (h : x ∈ m.store a b) :
    x = (a, b) ∨ x ∈ m := by
  induction m with
  | nil => simpa [Memory.store] using h
  | cons y m ih =>
    obtain ⟨k, v⟩ := y
    unfold Memory.store at h
    split at h
    · simpa using h
    · split at h
      · rcases List.mem_cons.1 h with h | h
        · exact .inl h
        · exact .inr (List.mem_cons_of_mem _ h)
      · rcases List.mem_cons.1 h with h | h
        · exact .inr (h ▸ List.mem_cons_self)
        · rcases ih h with h | h
          · exact .inl h
          · exact .inr (List.mem_cons_of_mem _ h)

/-- A store keeps the canonical form. -/
theorem store_wf {m : Memory} (a : Nat) (b : Byte) (h : m.wf) : (m.store a b).wf := by
  induction m with
  | nil => simp [Memory.store, Memory.wf]
  | cons x m ih =>
    obtain ⟨k, v⟩ := x
    have hk := List.pairwise_cons.1 h
    unfold Memory.store
    split
    · rename_i hak
      refine List.pairwise_cons.2 ⟨fun y hy => ?_, h⟩
      rcases List.mem_cons.1 hy with hy | hy
      · subst hy; exact hak
      · exact lt_trans hak (hk.1 y hy)
    · split
      · rename_i hak
        exact List.pairwise_cons.2 ⟨fun y hy => hak ▸ hk.1 y hy, hk.2⟩
      · rename_i h1 h2
        refine List.pairwise_cons.2 ⟨fun y hy => ?_, ih hk.2⟩
        rcases mem_store hy with hy | hy
        · subst hy; show k < a; omega
        · exact hk.1 y hy

/-- Every memory operation is a `storeAll`, which keeps the canonical form. -/
theorem storeAll_wf {m : Memory} (a : Nat) (bs : List Byte) (h : m.wf) : (m.storeAll a bs).wf := by
  induction bs generalizing m a with
  | nil => exact h
  | cons b bs ih => exact ih (a + 1) (store_wf a b h)

/-- The memory right after reset is in canonical form. -/
theorem reset_mem_wf : State.reset.mem.wf := List.Pairwise.nil

/-- What an address reads as after consecutive writes: the byte written there, or what it read as before. -/
theorem byteAt_storeAll (m : Memory) (a c : Nat) (bs : List Byte) :
    (m.storeAll a bs).byteAt c =
      if a ≤ c ∧ c < a + bs.length then bs[c - a]? else m.byteAt c := by
  induction bs generalizing m a with
  | nil =>
    have : ¬ (a ≤ c ∧ c < a) := by omega
    simp [Memory.storeAll, this]
  | cons b bs ih =>
    simp only [Memory.storeAll, ih, List.length_cons]
    by_cases hc : c = a
    · subst hc
      simp [byteAt_store_self]
    · rw [byteAt_store_other _ _ _ _ hc]
      by_cases h : a ≤ c ∧ c < a + (bs.length + 1)
      · have h' : a + 1 ≤ c ∧ c < a + 1 + bs.length := by omega
        have hs : c - a = (c - (a + 1)) + 1 := by omega
        rw [if_pos h', if_pos h, hs, List.getElem?_cons_succ]
      · have h' : ¬ (a + 1 ≤ c ∧ c < a + 1 + bs.length) := by omega
        rw [if_neg h', if_neg h]

/-- A read inside the bytes just written. -/
theorem readByte_writeBytes_inside (s : State) (a i : Nat) (bs : List Byte) (h : i < bs.length) :
    (s.writeBytes a bs).readByte (a + i) = bs[i] := by
  have : a ≤ a + i ∧ a + i < a + bs.length := by omega
  simp [State.readByte, byteAt_storeAll, this, List.getElem?_eq_getElem h]

/-- A read outside the bytes just written. -/
theorem readByte_writeBytes_outside (s : State) (a c : Nat) (bs : List Byte)
    (h : c < a ∨ a + bs.length ≤ c) : (s.writeBytes a bs).readByte c = s.readByte c := by
  have : ¬ (a ≤ c ∧ c < a + bs.length) := by omega
  simp [State.readByte, byteAt_storeAll, this]

/-- A byte of memory depends on the memory list alone. -/
theorem readByte_of_mem_eq {s t : State} (h : s.mem = t.mem) (a : Nat) : s.readByte a = t.readByte a := by
  simp [State.readByte, h]

end Sys2Proof.Machine
end

