-- ==== Sys2Proof/Laws/Cells.lean ====
section
/-! SUPPORT. What a cell of each memory reads as after the writes of the operations: the cell written, or the old cell
where the write did not reach. -/
namespace Sys2Proof.Machine

theorem flatMap_length {α : Type} (f : α → List Byte) (w : Nat) (hw : ∀ x, (f x).length = w) (l : List α) :
    (l.flatMap f).length = w * l.length := by
  induction l with
  | nil => simp
  | cons x l ih => simp [List.flatMap_cons, hw, ih, Nat.mul_add, Nat.add_comm]

/-- Byte `j` of cell `i` of a list of cells stored one after the other. -/
theorem flatMap_getElem? {α : Type} (f : α → List Byte) (w : Nat) (hw : ∀ x, (f x).length = w) (l : List α)
    (i j : Nat) (hj : j < w) : (l.flatMap f)[w * i + j]? = (l[i]?).bind fun x => (f x)[j]? := by
  induction l generalizing i with
  | nil => simp
  | cons x l ih =>
    cases i with
    | zero => simp [List.flatMap_cons, List.getElem?_append, hw, hj]
    | succ i =>
      have h1 : ¬ w * (i + 1) + j < w := by
        have : w ≤ w * (i + 1) := Nat.le_mul_of_pos_right w (by omega)
        omega
      have h2 : w * (i + 1) + j - w = w * i + j := by
        rw [Nat.mul_succ]; omega
      simp [List.flatMap_cons, List.getElem?_append, hw, h1, h2, ih]

/-- A byte inside consecutive writes, by its offset. -/
theorem readByte_writeBytes_getElem? (s : State) (a i : Nat) (bs : List Byte) (b : Byte) (h : bs[i]? = some b) :
    (s.writeBytes a bs).readByte (a + i) = b := by
  obtain ⟨hi, rfl⟩ := List.getElem?_eq_some_iff.1 h
  exact readByte_writeBytes_inside s a i bs hi

theorem trk_writeTrk (s : State) (t : Track) (j i : Nat) (bs : List Byte) (h : i < bs.length) :
    (s.writeTrk t j bs).trk t (j + i) = bs[i] := by
  have : trkAddr t (j + i) = trkAddr t j + i := by simp [trkAddr, Nat.add_assoc]
  simp only [State.trk, State.writeTrk, this]
  exact readByte_writeBytes_inside s _ i bs h

theorem dec_writeDec (s : State) (i : Nat) (bs : List Byte) (h : i < bs.length) :
    (s.writeDec bs).dec i = bs[i] := by
  have : decAddr i = decAddr 0 + i := by simp [decAddr]
  simp only [State.dec, State.writeDec, this]
  exact readByte_writeBytes_inside s _ i bs h

theorem bs_writeBs (s : State) (i : Nat) (bits : List Bool) (h : i < bits.length) :
    (s.writeBs bits).bs i = bits[i] := by
  have : bsAddr i = bsAddr 0 + i := by simp [bsAddr]
  simp only [State.bs, State.writeBs, this]
  rw [readByte_writeBytes_inside s _ i _ (by simpa using h)]
  simp

theorem smp_writeSmp (s : State) (i : Nat) (cells : List (BitVec 16)) (h : i < cells.length) :
    (s.writeSmp cells).smp i = sampleCell s.params.sampleW cells[i] := by
  have h0 : smpAddr i = smpAddr 0 + (2 * i + 0) := by simp [smpAddr]
  have h1 : smpAddr i + 1 = smpAddr 0 + (2 * i + 1) := by simp [smpAddr, Nat.add_assoc]
  have hc : cells[i]? = some cells[i] := List.getElem?_eq_getElem h
  simp only [State.smp, State.writeSmp]
  rw [h1, h0,
    readByte_writeBytes_getElem? s _ _ _ (cells[i].extractLsb' 0 8)
      (by rw [flatMap_getElem? _ 2 bytesOfHalf_length _ _ _ (by omega), hc]; rfl),
    readByte_writeBytes_getElem? s _ _ _ (cells[i].extractLsb' 8 8)
      (by rw [flatMap_getElem? _ 2 bytesOfHalf_length _ _ _ (by omega), hc]; rfl)]
  rw [halfOfBytes_bytes]
  rfl

theorem ivl_writeIvl (s : State) (i : Nat) (cells : List Word) (h : i < cells.length) :
    (s.writeIvl cells).ivl i = cells[i] := by
  have h0 : ivlAddr i = ivlAddr 0 + (4 * i + 0) := by simp [ivlAddr]
  have h1 : ivlAddr i + 1 = ivlAddr 0 + (4 * i + 1) := by simp [ivlAddr, Nat.add_assoc]
  have h2 : ivlAddr i + 2 = ivlAddr 0 + (4 * i + 2) := by simp [ivlAddr, Nat.add_assoc]
  have h3 : ivlAddr i + 3 = ivlAddr 0 + (4 * i + 3) := by simp [ivlAddr, Nat.add_assoc]
  have hc : cells[i]? = some cells[i] := List.getElem?_eq_getElem h
  simp only [State.ivl, State.writeIvl]
  rw [h1, h2, h3, h0,
    readByte_writeBytes_getElem? s _ _ _ (cells[i].extractLsb' 0 8)
      (by rw [flatMap_getElem? _ 4 bytesOfWord_length _ _ _ (by omega), hc]; rfl),
    readByte_writeBytes_getElem? s _ _ _ (cells[i].extractLsb' 8 8)
      (by rw [flatMap_getElem? _ 4 bytesOfWord_length _ _ _ (by omega), hc]; rfl),
    readByte_writeBytes_getElem? s _ _ _ (cells[i].extractLsb' 16 8)
      (by rw [flatMap_getElem? _ 4 bytesOfWord_length _ _ _ (by omega), hc]; rfl),
    readByte_writeBytes_getElem? s _ _ _ (cells[i].extractLsb' 24 8)
      (by rw [flatMap_getElem? _ 4 bytesOfWord_length _ _ _ (by omega), hc]; rfl)]
  exact wordOfBytes_bytes _

@[simp] theorem trackBytes_length (s : State) (t : Track) : (s.trackBytes t).length = s.trackLen t := by
  simp [State.trackBytes]
@[simp] theorem bitstring_length (s : State) : s.bitstring.length = s.csr.bslen.toNat := by simp [State.bitstring]
@[simp] theorem samples_length (s : State) : s.samples.length = s.csr.nsamp.toNat := by simp [State.samples]
@[simp] theorem intervals_length (s : State) : s.intervals.length = s.csr.nint.toNat := by
  simp [State.intervals]

end Sys2Proof.Machine
end

