-- ==== Sys2Proof/Laws/Ops.lean ====
section
/-! SUPPORT. One lemma for each shared operation of the meanings: everything it can do, to cite instead of unfolding
it. -/
namespace Sys2Proof.Machine

/-! ### STATUS -/

section Statuses
variable (st : Status) (e : ErrCode) (w : Waiting)

@[simp] theorem completed_busy : (st.completed e).busy = false := rfl
@[simp] theorem completed_done : (st.completed e).done = true := rfl
@[simp] theorem completed_err : (st.completed e).err = decide (e ≠ .none) := rfl
@[simp] theorem completed_errcode : (st.completed e).errcode = e := rfl
@[simp] theorem completed_waitRx : (st.completed e).waitRx = false := rfl
@[simp] theorem completed_waitTx : (st.completed e).waitTx = false := rfl
@[simp] theorem completed_settling : (st.completed e).settling = false := rfl
@[simp] theorem completed_cmdOvr : (st.completed e).cmdOvr = st.cmdOvr := rfl
@[simp] theorem completed_haz : (st.completed e).haz = st.haz := rfl
@[simp] theorem completed_tkerr : (st.completed e).tkerr = st.tkerr := rfl
@[simp] theorem completed_laststat : (st.completed e).laststat = st.laststat := rfl
@[simp] theorem completed_attempts : (st.completed e).attempts = st.attempts := rfl

@[simp] theorem waitingFor_busy : (st.waitingFor w).busy = st.busy := rfl
@[simp] theorem waitingFor_done : (st.waitingFor w).done = st.done := rfl
@[simp] theorem waitingFor_err : (st.waitingFor w).err = st.err := rfl
@[simp] theorem waitingFor_errcode : (st.waitingFor w).errcode = st.errcode := rfl
@[simp] theorem waitingFor_cmdOvr : (st.waitingFor w).cmdOvr = st.cmdOvr := rfl
@[simp] theorem waitingFor_haz : (st.waitingFor w).haz = st.haz := rfl
@[simp] theorem waitingFor_tkerr : (st.waitingFor w).tkerr = st.tkerr := rfl
@[simp] theorem waitingFor_laststat : (st.waitingFor w).laststat = st.laststat := rfl
@[simp] theorem waitingFor_attempts : (st.waitingFor w).attempts = st.attempts := rfl
@[simp] theorem waitingFor_waitingFor (v : Waiting) : (st.waitingFor v).waitingFor w = st.waitingFor w := rfl
@[simp] theorem waitingFor_completed : (st.waitingFor w).completed e = st.completed e := rfl

@[simp] theorem acknowledge_busy (v : Word) : (st.acknowledge v).busy = st.busy := rfl
@[simp] theorem acknowledge_waitRx (v : Word) : (st.acknowledge v).waitRx = st.waitRx := rfl
@[simp] theorem acknowledge_waitTx (v : Word) : (st.acknowledge v).waitTx = st.waitTx := rfl
@[simp] theorem acknowledge_settling (v : Word) : (st.acknowledge v).settling = st.settling := rfl
@[simp] theorem acknowledge_tkerr (v : Word) : (st.acknowledge v).tkerr = st.tkerr := rfl
@[simp] theorem acknowledge_laststat (v : Word) : (st.acknowledge v).laststat = st.laststat := rfl
@[simp] theorem acknowledge_attempts (v : Word) : (st.acknowledge v).attempts = st.attempts := rfl
end Statuses

/-! ### The end of a compute operation -/

theorem performIf_true (s : State) (body : State → State × ErrCode) :
    s.performIf true body = (body s).1.completeWith (body s).2 := rfl

theorem performIf_of_legal {s : State} {legal : Bool} (h : legal = true) (body : State → State × ErrCode) :
    s.performIf legal body = (body s).1.completeWith (body s).2 := by simp [State.performIf, h]

/-- Everything `performIf` can do. -/
theorem performIf_cases (s : State) (legal : Bool) (body : State → State × ErrCode) :
    (legal = true ∧ s.performIf legal body = (body s).1.completeWith (body s).2) ∨
    (legal = false ∧ s.performIf legal body = s.completeWith .illegalCommand) := by
  cases legal <;> simp [State.performIf]

theorem performOnTrack_of_select {s : State} {trk : BitVec 2} {t : Track} (h : selectTrack trk = some t)
    (body : Track → State → State × ErrCode) :
    s.performOnTrack trk body = (body t s).1.completeWith (body t s).2 := by
  simp [State.performOnTrack, h, performIf_true]

/-! ### The response buffer and the tracks -/

/-- Everything appending a response byte can do. -/
theorem appendReply_cases (s : State) (b : Byte) :
    (s.csr.resplen.toNat < 16 ∧
      s.appendReply b = s.withCsr { s.csr with
        respb := s.csr.respb.setIfInBounds s.csr.resplen.toNat b, resplen := s.csr.resplen + 1 }) ∨
    (16 ≤ s.csr.resplen.toNat ∧ s.appendReply b = s) := by
  unfold State.appendReply
  split
  · exact .inl ⟨‹_›, rfl⟩
  · exact .inr ⟨by omega, rfl⟩

@[simp] theorem appendReply_params (s : State) (b : Byte) : (s.appendReply b).params = s.params := by
  unfold State.appendReply; split <;> rfl
@[simp] theorem appendReply_mem (s : State) (b : Byte) : (s.appendReply b).mem = s.mem := by
  unfold State.appendReply; split <;> rfl
@[simp] theorem appendReply_seq (s : State) (b : Byte) : (s.appendReply b).seq = s.seq := by
  unfold State.appendReply; split <;> rfl
@[simp] theorem appendReply_rx (s : State) (b : Byte) : (s.appendReply b).rx = s.rx := by
  unfold State.appendReply; split <;> rfl
@[simp] theorem appendReply_sent (s : State) (b : Byte) : (s.appendReply b).sent = s.sent := by
  unfold State.appendReply; split <;> rfl
@[simp] theorem appendReply_busReply (s : State) (b : Byte) : (s.appendReply b).busReply = s.busReply := by
  unfold State.appendReply; split <;> rfl
@[simp] theorem appendReply_draws (s : State) (b : Byte) : (s.appendReply b).draws = s.draws := by
  unfold State.appendReply; split <;> rfl
@[simp] theorem appendReply_agenda (s : State) (b : Byte) : (s.appendReply b).agenda = s.agenda := by
  unfold State.appendReply; split <;> rfl
@[simp] theorem appendReply_status (s : State) (b : Byte) : (s.appendReply b).csr.status = s.csr.status := by
  unfold State.appendReply; split <;> rfl

/-- Everything a data byte of a track can do (43_serial_protocol R280). -/
theorem storeTrackByte_cases (s : State) (t : Track) (b : Byte) :
    ((s.tk t).len < (s.tk t).cap ∧
      s.storeTrackByte t b = (s.writeTrk t (s.tk t).len.toNat [b]).setTk t
        { s.tk t with wire := (saturate s.params.wireW ((s.tk t).wire.toNat + 1)).setWidth 16, len := (s.tk t).len + 1 }) ∨
    (¬ (s.tk t).len < (s.tk t).cap ∧
      s.storeTrackByte t b = s.setTk t { s.tk t with wire := (saturate s.params.wireW ((s.tk t).wire.toNat + 1)).setWidth 16 }) := by
  unfold State.storeTrackByte
  by_cases h : (s.tk t).len < (s.tk t).cap
  · exact .inl ⟨h, by simp [h]⟩
  · exact .inr ⟨h, by simp [h]⟩

/-! ### The step of a transaction -/

section TransactionStep
variable {begins : State → State} {afterFrame : FrameWord → State → State} {sent : Point → State → State}
  {received : Point → Byte → State → State} {settled : State → State} {s : State} {cmd : Word} {l : Locals}

/-- At the start of the pseudocode the block goes on by itself. -/
theorem transactionStep_start (h : s.seq = .txn cmd .start l) (he : s.event = none ∨ s.event = some .block) :
    transactionStep begins afterFrame sent received settled s = begins s := by
  rcases he with he | he <;> simp [transactionStep, h, Point.waiting, he]

/-- In a command frame the frame is emitted. -/
theorem transactionStep_frame {w : FrameWord} {b : FrameByte} (h : s.seq = .txn cmd (.frame w b) l) :
    transactionStep begins afterFrame sent received settled s = frameStep w b (afterFrame w) s := by
  simp [transactionStep, h]

/-- At a `Send` other than a command frame's the transport takes the offered byte. -/
theorem transactionStep_take {p : Point} (h : s.seq = .txn cmd p l) (hp : ∀ w b, p ≠ .frame w b)
    (hw : p.waiting = .send) (he : s.event = some .take) :
    transactionStep begins afterFrame sent received settled s = sent p (s.sendByte (s.offered p)) := by
  cases p <;> simp_all [transactionStep, Point.waiting]

/-- At a `Recv` the transport delivers the next byte of the stream. -/
theorem transactionStep_deliver {p : Point} {b : Byte} {rest : List Byte} (h : s.seq = .txn cmd p l)
    (hw : p.waiting = .recv) (he : s.event = some .deliver) (hr : s.rx = b :: rest) :
    transactionStep begins afterFrame sent received settled s = received p b { s with rx := rest } := by
  cases p <;> simp_all [transactionStep, Point.waiting]

/-- In `SettleWait` a tick counts. -/
theorem transactionStep_tick {left : Nat} (h : s.seq = .txn cmd (.settle left) l) (he : s.event = some .tick) :
    transactionStep begins afterFrame sent received settled s =
      if left ≤ 1 then settled s else s.moveTo (.settle (left - 1)) := by
  simp [transactionStep, h, Point.waiting, he]
end TransactionStep

/-! ### The agenda's move -/

/-- The state an outcome of `popNext` answers is the answered state with the move taken off. -/
theorem popNext_next {o : Host.Outcome State Fault Refusal} {t : State} (h : popNext o = .next t) :
    ∃ u, o = .next u ∧ t = u.pop := by
  cases o with
  | next u => exact ⟨u, rfl, by simpa [popNext] using h.symm⟩
  | fault r => nomatch r
  | refused r => simp [popNext] at h

end Sys2Proof.Machine
end

