-- ==== Sys2Proof/Laws/PerInstr.lean ====
section
/-! SUPPORT. One lemma for each constructor of Instr: its encoding carries the fixed bits of its row of the opcode
table, in the row's own encoding space. -/
namespace Sys2Proof.Laws.RowMatch

/-- The value of the row's `match` column: the OPC of a command word, the two bytes of a wire frame (30_encoding R121,
R129). -/
def rowMatch : Sys2Proof.Instr → Nat
  | .nop => 0x00
  | .getbit _ => 0x01
  | .setbit _ => 0x02
  | .revbyte => 0x03
  | .revtrack _ => 0x04
  | .unpack _ => 0x05
  | .revbits => 0x06
  | .rectify => 0x10
  | .peakfind => 0x11
  | .extract => 0x12
  | .demod => 0x13
  | .decodeAba => 0x20
  | .decodeIata => 0x21
  | .devReset => 0x30
  | .devCommtest => 0x31
  | .devReadiso _ => 0x32
  | .devReadraw _ => 0x33
  | .devWriteiso => 0x34
  | .devWriteraw => 0x35
  | .devErase _ => 0x36
  | .devModel => 0x37
  | .devFirmware => 0x38
  | .devLzquery => 0x39
  | .devXcmd _ => 0x3A
  | .wireRead => 0x1B72
  | .wireWrite => 0x1B77
  | .wireRawread => 0x1B6D
  | .wireRawwrite => 0x1B6E
  | .wireCommdiag => 0x1B65
  | .wireSensordiag => 0x1B86
  | .wireRamdiag => 0x1B87
  | .wireModel => 0x1B74
  | .wireFirmware => 0x1B76
  | .wireErase => 0x1B63
  | .wireSetbpi => 0x1B62
  | .wireSetbpc => 0x1B6F
  | .wireReset => 0x1B61
  | .wireLed81 => 0x1B81
  | .wireLed82 => 0x1B82
  | .wireLed83 => 0x1B83
  | .wireLed84 => 0x1B84
  | .wireLed85 => 0x1B85
  | .wireCoercivityhi => 0x1B78
  | .wireCoercivitylo => 0x1B79
  | .wireLzquery => 0x1B6C

/-- Whether the row is a wire frame (the row's `format` column). -/
def rowIsFrame : Sys2Proof.Instr → Bool
  | .nop => false
  | .getbit _ => false
  | .setbit _ => false
  | .revbyte => false
  | .revtrack _ => false
  | .unpack _ => false
  | .revbits => false
  | .rectify => false
  | .peakfind => false
  | .extract => false
  | .demod => false
  | .decodeAba => false
  | .decodeIata => false
  | .devReset => false
  | .devCommtest => false
  | .devReadiso _ => false
  | .devReadraw _ => false
  | .devWriteiso => false
  | .devWriteraw => false
  | .devErase _ => false
  | .devModel => false
  | .devFirmware => false
  | .devLzquery => false
  | .devXcmd _ => false
  | .wireRead => true
  | .wireWrite => true
  | .wireRawread => true
  | .wireRawwrite => true
  | .wireCommdiag => true
  | .wireSensordiag => true
  | .wireRamdiag => true
  | .wireModel => true
  | .wireFirmware => true
  | .wireErase => true
  | .wireSetbpi => true
  | .wireSetbpc => true
  | .wireReset => true
  | .wireLed81 => true
  | .wireLed82 => true
  | .wireLed83 => true
  | .wireLed84 => true
  | .wireLed85 => true
  | .wireCoercivityhi => true
  | .wireCoercivitylo => true
  | .wireLzquery => true

/-- The encoding of the instruction matches its row: a frame is the row's two bytes; a command word has the row's
OPC. -/
def Statement (i : Sys2Proof.Instr) : Prop :=
  match Sys2Proof.encode i with
  | .frame w => rowIsFrame i = true ∧ w.toNat = rowMatch i
  | .command w => rowIsFrame i = false ∧ (Sys2Proof.opcField w).toNat = rowMatch i

/-- The OPC of an assembled command word is the one it was assembled from (30_encoding R127). -/
theorem opcField_commandWord (arg : Sys2Proof.Byte) (rty : Bool) (trk : BitVec 2) (opc : Sys2Proof.Byte) :
    Sys2Proof.opcField (Sys2Proof.commandWord arg rty trk opc) = opc := by
  apply BitVec.eq_of_getLsbD_eq
  intro i hi
  simp only [Sys2Proof.opcField, Sys2Proof.commandWord, BitVec.getLsbD_append, BitVec.getLsbD_extractLsb', hi]
  simp [hi]

theorem nop : Statement .nop := And.intro rfl rfl
theorem getbit (trk : BitVec 2) : Statement (.getbit trk) := by
  simp [Statement, Sys2Proof.encode, rowIsFrame, rowMatch, opcField_commandWord]
theorem setbit (trk : BitVec 2) : Statement (.setbit trk) := by
  simp [Statement, Sys2Proof.encode, rowIsFrame, rowMatch, opcField_commandWord]
theorem revbyte : Statement .revbyte := And.intro rfl rfl
theorem revtrack (trk : BitVec 2) : Statement (.revtrack trk) := by
  simp [Statement, Sys2Proof.encode, rowIsFrame, rowMatch, opcField_commandWord]
theorem unpack (trk : BitVec 2) : Statement (.unpack trk) := by
  simp [Statement, Sys2Proof.encode, rowIsFrame, rowMatch, opcField_commandWord]
theorem revbits : Statement .revbits := And.intro rfl rfl
theorem rectify : Statement .rectify := And.intro rfl rfl
theorem peakfind : Statement .peakfind := And.intro rfl rfl
theorem extract : Statement .extract := And.intro rfl rfl
theorem demod : Statement .demod := And.intro rfl rfl
theorem decodeAba : Statement .decodeAba := And.intro rfl rfl
theorem decodeIata : Statement .decodeIata := And.intro rfl rfl
theorem devReset : Statement .devReset := And.intro rfl rfl
theorem devCommtest : Statement .devCommtest := And.intro rfl rfl
theorem devReadiso (rty : Bool) : Statement (.devReadiso rty) := by
  simp [Statement, Sys2Proof.encode, rowIsFrame, rowMatch, opcField_commandWord]
theorem devReadraw (rty : Bool) : Statement (.devReadraw rty) := by
  simp [Statement, Sys2Proof.encode, rowIsFrame, rowMatch, opcField_commandWord]
theorem devWriteiso : Statement .devWriteiso := And.intro rfl rfl
theorem devWriteraw : Statement .devWriteraw := And.intro rfl rfl
theorem devErase (mask : Byte) : Statement (.devErase mask) := by
  simp [Statement, Sys2Proof.encode, rowIsFrame, rowMatch, opcField_commandWord]
theorem devModel : Statement .devModel := And.intro rfl rfl
theorem devFirmware : Statement .devFirmware := And.intro rfl rfl
theorem devLzquery : Statement .devLzquery := And.intro rfl rfl
theorem devXcmd (code : Byte) : Statement (.devXcmd code) := by
  simp [Statement, Sys2Proof.encode, rowIsFrame, rowMatch, opcField_commandWord]
theorem wireRead : Statement .wireRead := And.intro rfl rfl
theorem wireWrite : Statement .wireWrite := And.intro rfl rfl
theorem wireRawread : Statement .wireRawread := And.intro rfl rfl
theorem wireRawwrite : Statement .wireRawwrite := And.intro rfl rfl
theorem wireCommdiag : Statement .wireCommdiag := And.intro rfl rfl
theorem wireSensordiag : Statement .wireSensordiag := And.intro rfl rfl
theorem wireRamdiag : Statement .wireRamdiag := And.intro rfl rfl
theorem wireModel : Statement .wireModel := And.intro rfl rfl
theorem wireFirmware : Statement .wireFirmware := And.intro rfl rfl
theorem wireErase : Statement .wireErase := And.intro rfl rfl
theorem wireSetbpi : Statement .wireSetbpi := And.intro rfl rfl
theorem wireSetbpc : Statement .wireSetbpc := And.intro rfl rfl
theorem wireReset : Statement .wireReset := And.intro rfl rfl
theorem wireLed81 : Statement .wireLed81 := And.intro rfl rfl
theorem wireLed82 : Statement .wireLed82 := And.intro rfl rfl
theorem wireLed83 : Statement .wireLed83 := And.intro rfl rfl
theorem wireLed84 : Statement .wireLed84 := And.intro rfl rfl
theorem wireLed85 : Statement .wireLed85 := And.intro rfl rfl
theorem wireCoercivityhi : Statement .wireCoercivityhi := And.intro rfl rfl
theorem wireCoercivitylo : Statement .wireCoercivitylo := And.intro rfl rfl
theorem wireLzquery : Statement .wireLzquery := And.intro rfl rfl

end Sys2Proof.Laws.RowMatch
end

