-- ==== Sys2Proof/Tests/Slice0.lean ====
section
/-! SUPPORT. The model's own tests: ill-formed instructions, words written out from 30_encoding, one-step runs on the
values of 95_test_vectors, and for every statement with hypotheses a concrete case that meets them. -/
namespace Sys2Proof.Tests
-- One declaration after the other: each `decide +kernel` would otherwise hold a thread of its own.
set_option Elab.async false
open Sys2Proof Sys2Proof.Machine
open Sys2Proof.Machine.Action (block take deliver tick)

/-! ### Well-formedness (30_encoding R122) -/

theorem test_getbit_without_track_is_ill_formed : (Instr.getbit 0).wellFormed = false := by decide +kernel
theorem test_setbit_without_track_is_ill_formed : (Instr.setbit 0).wellFormed = false := by decide +kernel
theorem test_revtrack_without_track_is_ill_formed : (Instr.revtrack 0).wellFormed = false := by decide +kernel
theorem test_unpack_without_track_is_ill_formed : (Instr.unpack 0).wellFormed = false := by decide +kernel

/-! ### Decoding: words written out from 30_encoding R120, R121 and R129 -/

theorem test_decode_nop : decodeTableWord 32 0b00000000_00000000_00000000_00000000 = some .nop := by decide
theorem test_decode_getbit : decodeTableWord 32 0b00000000_00000000_00000001_00000001 = some (.getbit 1) := by decide
theorem test_decode_setbit : decodeTableWord 32 0b00000000_00000000_00000010_00000010 = some (.setbit 2) := by decide
theorem test_decode_revbyte : decodeTableWord 32 0b00000000_00000000_00000000_00000011 = some .revbyte := by decide
theorem test_decode_revtrack : decodeTableWord 32 0b00000000_00000000_00000001_00000100 = some (.revtrack 1) :=
  by decide
theorem test_decode_unpack : decodeTableWord 32 0b00000000_00000000_00000011_00000101 = some (.unpack 3) := by decide
theorem test_decode_revbits : decodeTableWord 32 0b00000000_00000000_00000000_00000110 = some .revbits := by decide
theorem test_decode_rectify : decodeTableWord 32 0b00000000_00000000_00000000_00010000 = some .rectify := by decide
theorem test_decode_peakfind : decodeTableWord 32 0b00000000_00000000_00000000_00010001 = some .peakfind := by decide
theorem test_decode_extract : decodeTableWord 32 0b00000000_00000000_00000000_00010010 = some .extract := by decide
theorem test_decode_demod : decodeTableWord 32 0b00000000_00000000_00000000_00010011 = some .demod := by decide
theorem test_decode_decodeAba : decodeTableWord 32 0b00000000_00000000_00000000_00100000 = some .decodeAba :=
  by decide
theorem test_decode_decodeIata : decodeTableWord 32 0b00000000_00000000_00000000_00100001 = some .decodeIata :=
  by decide
theorem test_decode_devReset : decodeTableWord 32 0b00000000_00000000_00000000_00110000 = some .devReset := by decide
theorem test_decode_devCommtest : decodeTableWord 32 0b00000000_00000000_00000000_00110001 = some .devCommtest :=
  by decide
theorem test_decode_devReadiso : decodeTableWord 32 0b00000000_00000000_00010000_00110010 = some (.devReadiso true) :=
  by decide
theorem test_decode_devReadraw : decodeTableWord 32 0b00000000_00000000_00000000_00110011 = some (.devReadraw false) :=
  by decide
theorem test_decode_devWriteiso : decodeTableWord 32 0b00000000_00000000_00000000_00110100 = some .devWriteiso :=
  by decide
theorem test_decode_devWriteraw : decodeTableWord 32 0b00000000_00000000_00000000_00110101 = some .devWriteraw :=
  by decide
theorem test_decode_devErase : decodeTableWord 32 0b00000111_00000000_00000000_00110110 = some (.devErase 0x07) :=
  by decide
theorem test_decode_devModel : decodeTableWord 32 0b00000000_00000000_00000000_00110111 = some .devModel := by decide
theorem test_decode_devFirmware : decodeTableWord 32 0b00000000_00000000_00000000_00111000 = some .devFirmware :=
  by decide
theorem test_decode_devLzquery : decodeTableWord 32 0b00000000_00000000_00000000_00111001 = some .devLzquery :=
  by decide
theorem test_decode_devXcmd : decodeTableWord 32 0b10000101_00000000_00000000_00111010 = some (.devXcmd 0x85) :=
  by decide
theorem test_decode_wireRead : decodeTableWord 16 0b00011011_01110010 = some .wireRead := by decide
theorem test_decode_wireWrite : decodeTableWord 16 0b00011011_01110111 = some .wireWrite := by decide
theorem test_decode_wireRawread : decodeTableWord 16 0b00011011_01101101 = some .wireRawread := by decide
theorem test_decode_wireRawwrite : decodeTableWord 16 0b00011011_01101110 = some .wireRawwrite := by decide
theorem test_decode_wireCommdiag : decodeTableWord 16 0b00011011_01100101 = some .wireCommdiag := by decide
theorem test_decode_wireSensordiag : decodeTableWord 16 0b00011011_10000110 = some .wireSensordiag := by decide
theorem test_decode_wireRamdiag : decodeTableWord 16 0b00011011_10000111 = some .wireRamdiag := by decide
theorem test_decode_wireModel : decodeTableWord 16 0b00011011_01110100 = some .wireModel := by decide
theorem test_decode_wireFirmware : decodeTableWord 16 0b00011011_01110110 = some .wireFirmware := by decide
theorem test_decode_wireErase : decodeTableWord 16 0b00011011_01100011 = some .wireErase := by decide
theorem test_decode_wireSetbpi : decodeTableWord 16 0b00011011_01100010 = some .wireSetbpi := by decide
theorem test_decode_wireSetbpc : decodeTableWord 16 0b00011011_01101111 = some .wireSetbpc := by decide
theorem test_decode_wireReset : decodeTableWord 16 0b00011011_01100001 = some .wireReset := by decide
theorem test_decode_wireLed81 : decodeTableWord 16 0b00011011_10000001 = some .wireLed81 := by decide
theorem test_decode_wireLed82 : decodeTableWord 16 0b00011011_10000010 = some .wireLed82 := by decide
theorem test_decode_wireLed83 : decodeTableWord 16 0b00011011_10000011 = some .wireLed83 := by decide
theorem test_decode_wireLed84 : decodeTableWord 16 0b00011011_10000100 = some .wireLed84 := by decide
theorem test_decode_wireLed85 : decodeTableWord 16 0b00011011_10000101 = some .wireLed85 := by decide
theorem test_decode_wireCoercivityhi : decodeTableWord 16 0b00011011_01111000 = some .wireCoercivityhi := by decide
theorem test_decode_wireCoercivitylo : decodeTableWord 16 0b00011011_01111001 = some .wireCoercivitylo := by decide
theorem test_decode_wireLzquery : decodeTableWord 16 0b00011011_01101100 = some .wireLzquery := by decide
theorem test_decode_refuses_reserved_words :
    [0x07, 0xFF, 0x100, 0x400, 0x2000, 0x800000, 0x1034, 0x01000020].map (decodeTableWord 32) =
      List.replicate 8 none := by decide +kernel
theorem test_decode_refuses_other_frames :
    [0x1C72, 0x1B73, 0x721B, 0x0000].map (decodeTableWord 16) = List.replicate 4 none := by decide +kernel

/-! ### States for the tests -/

/-- The next state, if the outcome is one. -/
def after (o : Host.Outcome State Fault Refusal) : Option State :=
  match o with
  | .next t => some t
  | .fault _ => none
  | .refused _ => none

/-- One step on the command word, accepted in `s`. -/
def ran (word : Nat) (s : State) : Option State := after (step (s.withFetchWord 32 word))

/-- The reset state with bytes in the memories. -/
def holding (a : Nat) (bs : List Byte) : State := State.reset.writeBytes a bs

/-- The reset state with a loaded track (30_encoding R140 `loadtrk`). -/
def withTrack (t : Track) (bs : List Byte) : State :=
  (State.reset.writeTrk t 0 bs).setTk t { cap := 0xFF, len := BitVec.ofNat 8 bs.length, wire := 0 }

/-- The reset state with a loaded bitstring, written first symbol first. -/
def withBits (bits : List Nat) : State :=
  (State.reset.writeBs (bits.map (· == 1))).withCsr { csrAtReset with bslen := BitVec.ofNat 32 bits.length }

/-- The reset state with loaded samples. -/
def withSamples (silence : Nat) (cells : List Nat) : State :=
  (State.reset.writeSmp (cells.map (BitVec.ofNat 16))).withCsr
    { csrAtReset with nsamp := BitVec.ofNat 32 cells.length, silThres := BitVec.ofNat 16 silence }

/-- The reset state with loaded intervals. -/
def withIntervals (t : Nat) (cells : List Nat) : State :=
  (State.reset.writeIvl (cells.map (BitVec.ofNat 32))).withCsr
    { csrAtReset with nint := BitVec.ofNat 32 cells.length, freqThres := BitVec.ofNat 8 t }

/-- The bitstring as numbers. -/
def bitsOf (s : State) : List Nat := s.bitstring.map Bool.toNat

/-- The registers while the command runs and waits for `w`. -/
def busyCsr (cmd : Word) (w : Waiting) : Csr :=
  { csrAtReset with cmd := cmd, status := { statusAtReset with busy := true }.waitingFor w }

/-- A transaction at a position, with the next move and the bytes from the device. -/
def atPoint (cmd : Word) (p : Point) (a : Action) (rx : List Byte) : State :=
  { State.reset with csr := busyCsr cmd p.waiting, seq := .txn cmd p .empty, rx := rx, agenda := [a] }

/-- A compute operation accepted and not yet performed. -/
def accepted (cmd : Word) (agenda : List Action) : State :=
  { State.reset with csr := busyCsr cmd .nothing, seq := .run cmd, agenda := agenda }

/-- The state with some of the registers changed. -/
def tuned (s : State) (f : Csr → Csr) : State := s.withCsr (f s.csr)

/-- The state with these locals in its transaction. -/
def inAttempt (s : State) (a : Nat) (m : BitVec 8) : State := s.setLocals { attempts := a, maxAtt := m }

/-- The command words of the wire frames (30_encoding R129). -/
def frameCodes : List Nat := [0x72, 0x77, 0x6D, 0x6E, 0x65, 0x86, 0x87, 0x74, 0x76, 0x63,
  0x62, 0x6F, 0x61, 0x81, 0x82, 0x83, 0x84, 0x85, 0x78, 0x79, 0x6C]

/-! ### One step of each compute operation (95_test_vectors 2.1 to 2.3, 2.7) -/

theorem test_nop_only_sets_done :
    (ran 0x00000000 State.reset).map (fun t => (t.csr.status.toWord, t.seq)) = some (0x00000002#32, .idle) :=
    by decide +kernel

theorem test_getbit_reads_bit_ten :
    (ran 0x00000101 (tuned (withTrack .t1 [0xA5, 0x3C]) fun c => { c with bitidx := 10 })).map
      (fun t => (t.csr.bitval, t.csr.status.toWord)) = some (true, 0x00000002#32) := by decide +kernel
theorem test_getbit_past_the_end_is_a_range_error :
    (ran 0x00000101 (tuned (withTrack .t1 [0xA5, 0x3C]) fun c => { c with bitidx := 16 })).map
      (fun t => (t.csr.bitval, t.csr.status.toWord)) = some (false, 0x00000206#32) := by decide +kernel

theorem test_setbit_sets_the_top_bit :
    (ran 0x00000202 (tuned (withTrack .t2 [0x00]) fun c => { c with bitval := true })).map
      (fun t => t.trk .t2 0) = some 0x80#8 := by decide +kernel
theorem test_setbit_clears_the_low_bit :
    (ran 0x00000202 (tuned (withTrack .t2 [0xFF]) fun c => { c with bitidx := 7 })).map
      (fun t => t.trk .t2 0) = some 0xFE#8 := by decide +kernel

theorem test_revbyte_reverses_the_byte :
    (ran 0x00000003 (tuned State.reset fun c => { c with byteIn := 0x12 })).map (fun t => t.readCsr 0x34) =
      some 0x00004812#32 := by decide +kernel

theorem test_revtrack_reverses_bytes_and_bits :
    (ran 0x00000104 (withTrack .t1 [0x01, 0x02, 0xF0])).map (fun t => t.trackBytes .t1) =
      some [0x0F#8, 0x40#8, 0x80#8] := by decide +kernel

theorem test_unpack_writes_the_bits :
    (ran 0x00000305 (withTrack .t3 [0xA5, 0x3C])).map bitsOf =
      some [1, 0, 1, 0, 0, 1, 0, 1, 0, 0, 1, 1, 1, 1, 0, 0] := by decide +kernel

theorem test_revbits_reverses_the_symbols :
    (ran 0x00000006 (withBits [1, 1, 0, 1, 0])).map bitsOf = some [0, 1, 0, 1, 1] := by decide +kernel

theorem test_rectify_wraps_only_the_most_negative_sample :
    (ran 0x00000010 (withSamples 0 [0x0005, 0xFFFD, 0x8000, 0x7FFF])).map State.samples =
      some [0x0005#16, 0x0003#16, 0x8000#16, 0x7FFF#16] := by decide +kernel

/-- The rows of table M1 at `P_SAMPLE_W` = 8, worked by hand from 41_demodulator R191: |-128|, |-1|, |127|, and a cell whose
power-on or written high byte is no part of the sample. -/
theorem test_rectify_takes_the_width_of_a_sample :
    (ran 0x00000010 { withSamples 0 [0x0080, 0x00FF, 0x007F, 0xAA05] with
      params := { standardParams with sampleW := 8 } }).map State.samples =
      some [0x0080#16, 0x0001#16, 0x007F#16, 0x0005#16] := by decide +kernel

theorem test_peakfind_gives_a_tie_to_the_earlier_sample :
    (ran 0x00000011 (withSamples 0 [0, 5, 5, 0, 3])).map (fun t => (t.csr.npeak, t.intervals)) =
      some (2#32, [3]) := by decide +kernel
theorem test_peakfind_compares_the_full_magnitude :
    (ran 0x00000011 (withSamples 32767 [0x8000, 0, 0x7FFF, 0, 0x8001])).map (fun t => (t.csr.npeak, t.csr.nint)) =
      some (1#32, 0#32) := by decide +kernel

theorem test_extract_source_example :
    (ran 0x00000012 (withIntervals 60 [2, 2, 50, 50, 25, 25, 50])).map (fun t => (bitsOf t, t.csr.zerobl)) =
      some ([0, 1], 50#32) := by decide +kernel
theorem test_extract_excludes_the_end_point :
    (ran 0x00000012 (withIntervals 50 [1, 1, 40, 60, 1])).map (fun t => (bitsOf t, t.csr.zerobl)) =
      some ([], 40#32) := by decide +kernel

/-- Worked by hand from 41_demodulator R203 and R214: peaks at 1, 3, 5, 7, 9, 11, five intervals of 2, one 0. -/
theorem test_demod_runs_the_three_stages :
    (ran 0x00000013 (tuned (withSamples 0 [0, 5, 0, 0xFFFB, 0, 5, 0, 0xFFFB, 0, 5, 0, 0xFFFB])
      fun c => { c with freqThres := 25 })).map
      (fun t => (t.csr.npeak, t.intervals, bitsOf t, t.csr.zerobl, t.smp 3)) =
      some (6#32, [2, 2, 2, 2, 2], [0], 2#32, 5#16) := by decide +kernel

theorem test_decodeAba_decodes_two_characters :
    (ran 0x00000020 (withBits
      [0,0,0, 1,1,0,1,0, 1,0,0,0,0, 0,1,0,0,0, 1,1,1,1,1, 1,1,1,0,0, 0,0])).map
      (fun t => ([t.dec 0, t.dec 1, t.dec 2, t.dec 3], t.csr.declen)) =
      some ([0x3B#8, 0x31#8, 0x32#8, 0x3F#8], 4#32) := by decide +kernel
theorem test_decodeAba_refuses_a_truncated_lrc :
    (ran 0x00000020 (withBits [0,0,0, 1,1,0,1,0, 1,0,0,0,0, 0,1,0,0,0, 1,1,1,1,1, 1,1,1,0])).map
      (fun t => (t.csr.status.toWord, t.csr.declen)) = some (0x00000706#32, 0#32) := by decide +kernel

theorem test_decodeIata_decodes_two_characters :
    (ran 0x00000021 (withBits
      [0,0,0, 1,0,1,0,0,0,1, 1,0,0,0,0,1,1, 1,0,0,0,1,0,1, 1,1,1,1,1,0,0, 0,1,0,1,0,1,0, 0,0])).map
      (fun t => ([t.dec 0, t.dec 1, t.dec 2, t.dec 3], t.csr.declen)) =
      some ([0x25#8, 0x41#8, 0x31#8, 0x3F#8], 4#32) := by decide +kernel

/-! ### One step of each transaction (95_test_vectors 2.4, 2.5) -/

theorem test_devReset_offers_its_frame :
    (ran 0x00000030 State.reset).map (fun t => (t.seq, t.csr.status.toWord)) =
      some (.txn 0x00000030#32 (.frame 0x1B61#16 .esc) .empty, 0x00000081#32) := by decide +kernel
theorem test_devReset_settles_after_its_frame :
    (after (step (atPoint 0x00000030 (.frame 0x1B61 .code) .take []))).map
      (fun t => (t.sent, t.seq, t.csr.status.toWord)) =
      some ([0x61#8], .txn 0x00000030#32 (.settle 100) .empty, 0x00000041#32) := by decide +kernel

theorem test_devCommtest_ends_at_the_ok_byte :
    (after (step (atPoint 0x00000031 .commtest .deliver [0x79]))).map (fun t => (t.csr.status.toWord, t.rx)) =
      some (0x00000002#32, []) := by decide +kernel
theorem test_devCommtest_discards_other_bytes :
    (after (step (atPoint 0x00000031 .commtest .deliver [0x41, 0x79]))).map (fun t => (t.csr.status.toWord, t.rx)) =
      some (0x00000021#32, [0x79#8]) := by decide +kernel

theorem test_devReadiso_counts_bytes_past_the_capacity :
    (after (step (tuned (atPoint 0x00000032 (.trackData .t1) .deliver [0x45])
      fun c => { c with tk1 := { cap := 4, len := 4, wire := 4 } }))).map (fun t => (t.tk .t1, t.mem)) =
      some ({ cap := 4, len := 4, wire := 5 }, []) := by decide +kernel
theorem test_devReadiso_carries_the_escape_of_an_error_delimiter :
    (after (step (tuned (atPoint 0x00000032 (.trackData .t2) .deliver [0x1B])
      fun c => { c with tk2 := { cap := 255, len := 2, wire := 2 } }))).map
      (fun t => (t.seq, t.tk .t2, t.csr.status.tkerr)) =
      some (.txn 0x00000032#32 (.headerNum .t3) .empty, { cap := 255, len := 0, wire := 2 }, 2#3) := by decide +kernel

theorem test_devReadraw_retried_begins_with_a_device_reset :
    (ran 0x00001033 State.reset).map (fun t => (t.seq, t.csr.status.toWord)) =
      some (.txn 0x00001033#32 (.frame 0x1B61#16 .esc) { attempts := 1, maxAtt := 0 }, 0x01000081#32) :=
    by decide +kernel
theorem test_devReadraw_gives_up_after_its_last_attempt :
    (after (step (inAttempt (atPoint 0x00001033 (.reply 1) .deliver [0x41]) 2 2))).map
      (fun t => t.csr.status.toWord) = some 0x00410A06#32 := by decide +kernel

theorem test_devWriteiso_goes_on_with_the_next_track :
    (after (step (tuned ((atPoint 0x00000034 (.writeData .t1 1) .take []).writeTrk .t1 0 [0x31, 0x32])
      fun c => { c with tk1 := { c.tk1 with len := 2 } }))).map (fun t => (t.sent, t.seq)) =
      some ([0x32#8], .txn 0x00000034#32 (.writeEsc .t2) .empty) := by decide +kernel

theorem test_devWriteraw_sends_the_length_after_the_number :
    (after (step (atPoint 0x00000035 (.writeNum .t1) .take []))).map (fun t => (t.sent, t.seq)) =
      some ([0x01#8], .txn 0x00000035#32 (.writeLen .t1) .empty) := by decide +kernel

theorem test_devErase_sends_its_mask :
    (after (step (atPoint 0x07000036 (.eraseMask 0x07) .take []))).map (fun t => (t.sent, t.seq)) =
      some ([0x07#8], .txn 0x07000036#32 (.reply 2) .empty) := by decide +kernel
theorem test_devErase_reports_a_bad_status :
    (after (step (tuned (atPoint 0x07000036 (.reply 1) .deliver [0x41]) fun c => { c with resplen := 1 }))).map
      (fun t => (t.csr.status.toWord, t.csr.resplen)) = some (0x00410A06#32, 2#5) := by decide +kernel

theorem test_devModel_accepts_a_listed_model :
    (after (step (tuned (atPoint 0x00000037 (.reply 1) .deliver [0x53]) fun c =>
      { c with resplen := 2, respb := (c.respb.set 0 0x1B).set 1 0x33 }))).map (fun t => t.csr.status.toWord) =
      some 0x00000002#32 := by decide +kernel
theorem test_devModel_rejects_an_unlisted_model :
    (after (step (tuned (atPoint 0x00000037 (.reply 1) .deliver [0x53]) fun c =>
      { c with resplen := 2, respb := (c.respb.set 0 0x1B).set 1 0x34 }))).map (fun t => t.csr.status.toWord) =
      some 0x00000906#32 := by decide +kernel

theorem test_devFirmware_receives_nine_bytes :
    (after (step (atPoint 0x00000038 (.frame 0x1B76 .code) .take []))).map (fun t => (t.sent, t.seq)) =
      some ([0x76#8], .txn 0x00000038#32 (.reply 9) .empty) := by decide +kernel

theorem test_devLzquery_offers_its_frame :
    (ran 0x00000039 (tuned State.reset fun c => { c with resplen := 7 })).map (fun t => (t.seq, t.csr.resplen)) =
      some (.txn 0x00000039#32 (.frame 0x1B6C#16 .esc) .empty, 0#5) := by decide +kernel

theorem test_devXcmd_sends_its_last_payload_byte :
    (after (step (tuned (atPoint 0x6200003A (.payload 1) .take []) fun c =>
      { c with xtxlen := 2, xrxlen := 1, xpay0 := 0x0000D1D2 }))).map (fun t => (t.sent, t.seq)) =
      some ([0xD1#8], .txn 0x6200003A#32 (.reply 1) .empty) := by decide +kernel
theorem test_devXcmd_checks_the_status_when_asked :
    (after (step (tuned (atPoint 0x8500003A (.reply 1) .deliver [0x41]) fun c =>
      { c with xrxlen := 2, xchk := true, resplen := 1 }))).map (fun t => t.csr.status.toWord) =
      some 0x00410A06#32 := by decide +kernel

/-! ### The two steps of each wire frame (43_serial_protocol R270) -/

theorem test_wire_frames_send_the_escape_first :
    ∀ c ∈ frameCodes, (after (step (State.reset.withFetchWord 16 (0x1B00 + c)))).map
      (fun t => (t.sent, t.seq, t.csr.status.toWord)) =
      some ([0x1B#8], .txn (commandWord (BitVec.ofNat 8 c) false 0 0x3A)
        (.frame (BitVec.ofNat 16 (0x1B00 + c)) .code) .empty, 0x00000081#32) := by decide +kernel
theorem test_wire_frames_send_the_code_second :
    ∀ c ∈ frameCodes, (after (step (atPoint (commandWord (BitVec.ofNat 8 c) false 0 0x3A)
      (.frame (BitVec.ofNat 16 (0x1B00 + c)) .code) .take []))).map
      (fun t => (t.sent, t.seq, t.csr.status.toWord)) =
      some ([BitVec.ofNat 8 c], .idle, 0x00000002#32) := by decide +kernel

/-! ### The host's side (95_test_vectors 2.6, program P6) -/

theorem test_refused_words :
    [0x00000007#32, 0x00000100#32, 0x00000001#32, 0x00000401#32, 0x00002000#32, 0x00001034#32, 0x01000020#32].map
      (fun v => (State.reset.hostAccess (.write 0x04 .word v)).csr.status.toWord) =
      List.replicate 7 0x00000106#32 := by decide +kernel
theorem test_sample_write_is_truncated_to_the_width :
    (({ State.reset with params := { standardParams with sampleW := 12 } }.hostAccess
      (.write 0x01000000 .half 0xF9A5)).hostAccess (.read 0x01000000 .half)).busReply =
      some { data := 0x000009A5, busError := false } := by decide +kernel
theorem test_wire_counter_saturates_at_its_width :
    (after (step (tuned { atPoint 0x00000033 (.trackData .t1) .deliver [0x45] with
      params := { standardParams with wireW := 4 } } fun c => { c with tk1 := { cap := 0, len := 0, wire := 15 } }))).map
      (fun t => t.tk .t1) = some { cap := 0, len := 0, wire := 15 } := by decide +kernel
theorem test_overrun_keeps_the_command :
    let t := (atPoint 0x00000032 (.scan 0) .tick []).hostAccess (.write 0x04 .word 0)
    (t.csr.status.toWord, t.csr.cmd) = (0x00000029#32, 0x00000032#32) := by decide +kernel

/-! ### For every statement with hypotheses, a case that meets them

The name of a witness is the name of its statement; a clause is named behind it. -/

/-- An outcome that `after` reads as a state is a next state. -/
theorem next_of_after {o : Host.Outcome State Fault Refusal} (h : (after o).isSome = true) : ∃ t, o = .next t := by
  cases o with
  | next t => exact ⟨t, rfl⟩
  | fault r => cases r
  | refused r => simp [after] at h

/-- The reset state with a bitstring of symbols. -/
def withSymbols (b : List Bool) : State :=
  (State.reset.writeBs b).withCsr { csrAtReset with bslen := BitVec.ofNat 32 b.length }

/-- The symbols of the empty ABA track of 95_test_vectors, table D1. -/
def emptyAba : List Bool := [0,0,0, 1,1,0,1,0, 1,1,1,1,1, 0,0,1,0,0, 0,0].map (· == 1)

/-- A transaction at its start, with the moves to come and the bytes from the device. -/
def starting (cmd : Word) (agenda : List Action) (rx : List Byte) : State :=
  { State.reset with csr := busyCsr cmd .nothing, seq := .txn cmd .start .empty, rx := rx, agenda := agenda }

theorem witness_DecodeInvertsEncode :
    (Instr.getbit 3).wellFormed = true ∧ (Instr.devErase 0xFF).wellFormed = true ∧
      Instr.wireLzquery.wellFormed = true := by decide +kernel

theorem witness_EncodeInvertsDecode :
    decode (.command 0xFF000036#32) = .ok (.devErase 0xFF) ∧ decode (.frame 0x1B6C#16) = .ok .wireLzquery :=
    by decide +kernel

theorem witness_CommandWordsFollowTheOperationMap :
    decodeCommand 0x00001033#32 = .ok (.devReadraw true) ∧ (Instr.devReadraw true).wellFormed = true ∧
      ∃ r ∈ operationMap, r.admits 0x00001033#32 ∧ r.operation 0x00001033#32 = .devReadraw true :=
  ⟨by decide +kernel, by decide +kernel, ⟨0x33, false, true, false, fun _ r _ => .devReadraw r⟩, by simp [operationMap],
    by simp [MapRow.admits], by decide +kernel⟩

theorem witness_StepRunsTheFetchedInstruction_command :
    (accepted 0x00000305 [.block]).blockMoves = true ∧
      (accepted 0x00000305 [.block]).fetched = some (.command 0x00000305#32) ∧
      decode (.command 0x00000305#32) = .ok (.unpack 3) := by decide +kernel
theorem witness_StepRunsTheFetchedInstruction_frame :
    (atPoint 0x00000032 (.frame 0x1B72 .esc) .take []).blockMoves = true ∧
      (atPoint 0x00000032 (.frame 0x1B72 .esc) .take []).fetched = some (.frame 0x1B72#16) ∧
      decode (.frame 0x1B72#16) = .ok .wireRead := by decide +kernel
theorem witness_StepRunsTheFetchedInstruction_compute :
    (accepted 0x00000305 []).seq = .run 0x00000305#32 ∧ (accepted 0x00000305 []).agenda.head? = none ∧
      (accepted 0x00000305 [.block]).agenda.head? = some .block := by decide +kernel
theorem witness_StepRunsTheFetchedInstruction_transaction :
    (∀ a, (atPoint 0x0000003A (.frame 0x1B00 .esc) .take []).agenda.head? ≠ some (.host a)) ∧
      (∀ b, (atPoint 0x0000003A (.frame 0x1B00 .esc) .take []).agenda.head? ≠ some (.device b)) ∧
      (∀ i, decodeFrame 0x1B00#16 ≠ .ok i) ∧ decodeFrame 0x1B72#16 = .ok .wireRead := by
  refine ⟨by simp [atPoint], by simp [atPoint], fun i h => ?_, by decide +kernel⟩
  rw [show decodeFrame 0x1B00#16 = .error .unlistedCode by decide +kernel] at h
  cases h

theorem witness_HostAndDeviceMovesTakeEffect :
    (State.reset.withFetchWord 32 0).agenda = [.block] ∧
      { State.reset with agenda := [.host (.read 0x08 .word), .device 0x30] }.agenda =
        .host (.read 0x08 .word) :: [.device 0x30] := by decide +kernel

theorem witness_MemoryCanonicalFormIsKept :
    { holding 0x10000 [1, 2] with agenda := [.host (.write 0x10001 .byte 7)] }.mem.wf ∧
      ∃ t, step { holding 0x10000 [1, 2] with agenda := [.host (.write 0x10001 .byte 7)] } = .next t :=
  ⟨by decide +kernel, next_of_after (by decide +kernel)⟩

/-- A read waiting for its first byte is consistent. -/
theorem scanning_is_consistent (a : Action) (rx : List Byte) : (atPoint 0x00000032 (.scan 0) a rx).Consistent where
  busy_iff := by simp [atPoint, busyCsr, Status.waitingFor]
  waitTx_eq := rfl
  waitRx_eq := rfl
  settling_iff := by simp [atPoint, busyCsr, Status.waitingFor, State.waiting, Point.waiting]
  running := by simp [atPoint, busyCsr, Status.waitingFor, statusAtReset]
  err_iff := by simp [atPoint, busyCsr, Status.waitingFor, statusAtReset]
  response_fits := by simp [atPoint, busyCsr, csrAtReset]
  accepted := by
    refine ⟨rfl, ?_, ?_⟩
    · simp [commandLegal, show decodeCommand 0x00000032#32 = .ok (.devReadiso false) by decide +kernel, Instr.wellFormed,
        operandsLegal]
    · decide

/-- A transaction offering a byte of its frame is consistent. -/
theorem sending_is_consistent (a : Action) (rx : List Byte) :
    (atPoint 0x00000032 (.frame 0x1B72 .esc) a rx).Consistent where
  busy_iff := by simp [atPoint, busyCsr, Status.waitingFor]
  waitTx_eq := rfl
  waitRx_eq := rfl
  settling_iff := by simp [atPoint, busyCsr, Status.waitingFor, State.waiting, Point.waiting]
  running := by simp [atPoint, busyCsr, Status.waitingFor, statusAtReset]
  err_iff := by simp [atPoint, busyCsr, Status.waitingFor, statusAtReset]
  response_fits := by simp [atPoint, busyCsr, csrAtReset]
  accepted := by
    refine ⟨rfl, ?_, ?_⟩
    · simp [commandLegal, show decodeCommand 0x00000032#32 = .ok (.devReadiso false) by decide +kernel, Instr.wellFormed,
        operandsLegal]
    · decide

theorem witness_SequencerAndStatusStayConsistent :
    (atPoint 0x00000032 (.scan 0) .deliver [0x73]).Consistent ∧
      ∃ t, step (atPoint 0x00000032 (.scan 0) .deliver [0x73]) = .next t :=
  ⟨scanning_is_consistent _ _, next_of_after (by decide +kernel)⟩

theorem witness_ReadsKeepTracksWithinCapacity_attempt :
    (atPoint 0x00001032 (.trackData .t1) .deliver [0x41]).seq = .txn 0x00001032#32 (.trackData .t1) .empty ∧
      attemptBegun true (.trackData .t1) = true ∧ attemptBegun true (.frame 0x1B72 .esc) = true ∧
      (atPoint 0x00001032 (.trackData .t1) .deliver [0x41]).tracksWithinCapacity ∧
      ∃ t, exec (.devReadiso true) (atPoint 0x00001032 (.trackData .t1) .deliver [0x41]) = .next t :=
  ⟨rfl, by decide +kernel, by decide +kernel, fun t => by cases t <;> decide, next_of_after (by decide +kernel)⟩
theorem witness_ReadsKeepTracksWithinCapacity_start :
    (starting 0x00000033 [.block] []).seq = .txn 0x00000033#32 .start .empty ∧
      (starting 0x00000033 [.block] []).event = some .block ∧
      ∃ t, exec (.devReadraw false) (starting 0x00000033 [.block] []) = .next t :=
  ⟨rfl, rfl, next_of_after (by decide +kernel)⟩
theorem witness_ReadsKeepTracksWithinCapacity_settled :
    (atPoint 0x00001033 (.settle 1) .tick []).seq = .txn 0x00001033#32 (.settle 1) .empty ∧
      (atPoint 0x00001033 (.settle 1) .tick []).event = some .tick ∧
      ∃ t, exec (.devReadraw true) (atPoint 0x00001033 (.settle 1) .tick []) = .next t :=
  ⟨rfl, rfl, next_of_after (by decide +kernel)⟩

theorem witness_SoftResetWorksAtAnyTime :
    (0x00000004#32).getLsbD 2 = true ∧ (0xFFFFFFFF#32).getLsbD 2 = true ∧
      { starting 0x00000032 [] [] with agenda := [.host (.write 0#32 .word 0xFFFFFFFF#32)] }.agenda =
        .host (.write 0#32 .word 0xFFFFFFFF#32) :: [] := by decide +kernel

theorem witness_AccessesFollowTheAddressMap :
    standardParams.valid = true ∧ accessedWindow standardParams 0x100FE#32 .byte = some (.trk .t1) ∧
      accessedWindow standardParams 0x100FF#32 .byte = none ∧
      accessedWindow standardParams 0x21FFFFC#32 .word = some .ivl ∧
      accessedWindow standardParams 0x2200000#32 .word = none := by decide +kernel

theorem witness_BusErrorsChangeNothing :
    (∀ r ∈ addressMap State.reset.params, ¬ r.takes (0x1000#32).toNat .word) ∧
      (∀ r ∈ addressMap State.reset.params, ¬ r.takes (0x1000001#32).toNat .half) ∧
      (∀ r ∈ addressMap State.reset.params, ¬ r.takes (0x10000#32).toNat .word) := by
  simp only [MapWindow.takes]
  decide +kernel

/-- The last cell of each window takes an access of the window's width. -/
theorem last_cells_are_taken :
    ∀ r ∈ addressMap State.reset.params,
      r.takes (BitVec.ofNat 32 (r.base + (r.cells - 1) * r.width)).toNat r.window.width := by
  simp only [MapWindow.takes]
  decide +kernel
theorem witness_MemoryWriteThenReadReturnsTheCell :
    State.reset.params.valid = true ∧ State.reset.csr.status.busy = false ∧
      (⟨.bs, 0x200000, 0x100000, 1⟩ : MapWindow) ∈ addressMap State.reset.params ∧ Window.bs ≠ .csr ∧
      (⟨.bs, 0x200000, 0x100000, 1⟩ : MapWindow).takes (0x2FFFFF#32).toNat .byte := by
  refine ⟨by decide +kernel, by decide +kernel, by simp [addressMap, State.reset, standardParams], by decide +kernel, ?_⟩
  simp only [MapWindow.takes]
  decide +kernel

/-- A host read of a cell that the block wrote: the end sentinel that DECODE.ABA stores behind the start sentinel. -/
theorem test_read_of_a_decoded_cell :
    (ran 0x20 (withSymbols emptyAba)).bind (fun t => (t.hostAccess (.read 0x100001#32 .byte)).busReply) =
      some { data := 0x3F, busError := false } := by decide +kernel

/-- A host read of a cell that no write has reached answers its power-on draw (20_memory R110). -/
theorem test_read_of_an_unwritten_cell :
    (State.reset.hostAccess (.read 0x100001#32 .byte)).busReply =
      some { data := (Config.powerOnByte 0x100001).setWidth 32, busError := false } := rfl

theorem witness_RegisterFileReadsAndWrites :
    0xFFC < 0x1000 ∧ 0xFFC % 4 = 0 ∧ State.reset.csr.status.busy = false ∧ (0xFFFFFFFB#32).getLsbD 2 = false ∧
      (⟨0x88, [(0, 0)]⟩ : RegisterRow) ∈ registerMap State.reset.csr ∧
      0x58 ∉ (registerMap State.reset.csr).map RegisterRow.offset ∧
      0x8C ∉ (registerMap State.reset.csr).map RegisterRow.offset :=
  ⟨by decide, by decide, by decide, by decide, by simp [registerMap, State.reset, csrAtReset, trackRegsAtReset],
    by simp [registerMap], by simp [registerMap]⟩

theorem witness_WritesWhileBusy :
    (accepted 0 []).params.valid = true ∧ (accepted 0 []).csr.status.busy = true ∧
      (⟨.csr, 0x0, 0x400, 4⟩ : MapWindow) ∈ addressMap (accepted 0 []).params ∧
      (∀ a ∈ [0x00, 0x04, 0x08, 0xFFC], (⟨.csr, 0x0, 0x400, 4⟩ : MapWindow).takes a .word) ∧
      (⟨.trk .t3, 0x10200, 255, 1⟩ : MapWindow) ∈ addressMap (accepted 0 []).params ∧
      (⟨.trk .t3, 0x10200, 255, 1⟩ : MapWindow).takes 0x102FE .byte := by
  refine ⟨by decide +kernel, by decide +kernel, by simp [addressMap], ?_,
    by simp [addressMap, accepted, State.reset, standardParams], ?_⟩ <;>
    simp only [MapWindow.takes] <;> decide +kernel

theorem witness_ReadsWhileBusy :
    (accepted 0 []).params.valid = true ∧ (accepted 0 []).csr.status.busy = true ∧
      (⟨.csr, 0x0, 0x400, 4⟩ : MapWindow).takes (0x88#32).toNat .word ∧
      (⟨.smp, 0x1000000, 0x100000, 2⟩ : MapWindow) ∈ addressMap (accepted 0 []).params ∧
      (⟨.smp, 0x1000000, 0x100000, 2⟩ : MapWindow).takes (0x11FFFFE#32).toNat .half := by
  refine ⟨by decide +kernel, by decide +kernel, ?_, by simp [addressMap, accepted, State.reset, standardParams], ?_⟩ <;>
    simp only [MapWindow.takes] <;> decide +kernel

theorem witness_LegalCommandIsAccepted :
    State.reset.csr.status.busy = false ∧ ¬ State.reset.isIllegal 0x00000301#32 ∧
      ¬ (tuned State.reset fun c => { c with nsamp := 0x100000 }).isIllegal 0x00000010#32 ∧
      ¬ (withIntervals 25 [1, 0x7FFFFFFF]).isIllegal 0x00000012#32 ∧
      ¬ (tuned State.reset fun c => { c with xtxlen := 8 }).isIllegal 0xFF00003A#32 := by
  refine ⟨by decide +kernel, ?_, ?_, ?_, ?_⟩ <;> simp only [State.isIllegal, State.outOfBounds, MapRow.admits] <;>
    decide +kernel

theorem witness_IllegalCommandIsRefused :
    State.reset.csr.status.busy = false ∧ State.reset.isIllegal 0x00000001#32 ∧
      (tuned State.reset fun c => { c with nsamp := 0x100001 }).isIllegal 0x00000013#32 ∧
      (tuned State.reset fun c => { c with bslen := 0x100001 }).isIllegal 0x00000006#32 ∧
      (withIntervals 25 [1, 0x80000000]).isIllegal 0x00000012#32 ∧
      (withIntervals 25 [0]).isIllegal 0x00000012#32 ∧
      (tuned State.reset fun c => { c with xtxlen := 9 }).isIllegal 0x0000003A#32 := by
  refine ⟨by decide +kernel, .inl ?_, .inr ?_, .inr ?_, .inr ?_, .inr ?_, .inr ?_⟩ <;>
    simp only [State.outOfBounds, MapRow.admits] <;> decide +kernel

theorem witness_DoneRisesOnlyAtCompletionOrRefusal :
    (accepted 0 [.block]).csr.status.done = false ∧
      (after (step (accepted 0 [.block]))).map (fun t => t.csr.status.done) = some true ∧
      (after (step { State.reset with agenda := [.host (.write 0x04 .word 7)] })).map
        (fun t => t.csr.status.done) = some true := by decide +kernel

theorem witness_IdleWaitsForACommandWrite :
    State.reset.seq = .idle ∧ State.reset.agenda = [] ∧
      { State.reset with agenda := [block] }.agenda.head? = some block ∧
      (after (step { State.reset with agenda := [.host (.write 0x04 .word 0)] })).map (fun t => t.seq) =
        some (.run 0) ∧
      (after (step { State.reset with agenda := [.host (.write 0x04 .word 0x30)] })).map (fun t => t.seq) =
        some (.txn 0x30 .start .empty) := by decide +kernel

theorem witness_GetbitReadsOneBit :
    let s (i : Word) : State := tuned (withTrack .t1 [0xA5, 0x3C]) fun c => { c with bitidx := i }
    (s 15).csr.bitidx.toNat < 8 * ((s 15).tk .t1).len.toNat ∧
      8 * ((s 16).tk .t1).len.toNat ≤ (s 16).csr.bitidx.toNat := by decide +kernel

theorem witness_SetbitWritesOneBit :
    let s (i : Word) : State := tuned (withTrack .t2 [0xFF]) fun c => { c with bitidx := i }
    (s 7).csr.bitidx.toNat < 8 * ((s 7).tk .t2).len.toNat ∧
      8 * ((s 8).tk .t2).len.toNat ≤ (s 8).csr.bitidx.toNat := by decide +kernel

theorem witness_RevbitsReversesTheBitstring :
    (tuned State.reset fun c => { c with bslen := 0x100000 }).csr.bslen.toNat ≤ State.reset.params.bsMax ∧
      (withBits [1, 0]).csr.bslen.toNat ≤ (withBits [1, 0]).params.bsMax := by decide +kernel
theorem witness_ReversalsAreInvolutions : (withBits [1, 0]).csr.bslen.toNat ≤ (withBits [1, 0]).params.bsMax := by
  decide +kernel
theorem witness_ReversedTrackUnpacksReversed : (withTrack .t3 [0xA5, 0x3C]).params.valid = true := by decide +kernel

theorem witness_RectifyStoresMagnitudes :
    (tuned State.reset fun c => { c with nsamp := 0x100000 }).csr.nsamp.toNat ≤ State.reset.params.nsMax ∧
      (withSamples 0 [0x8000]).csr.nsamp.toNat ≤ (withSamples 0 [0x8000]).params.nsMax := by decide +kernel
theorem witness_PeakfindStoresPeakDistances :
    (tuned State.reset fun c => { c with nsamp := 0x100000 }).csr.nsamp.toNat ≤ State.reset.params.nsMax ∧
      (withSamples 0 [5, 0, 5]).csr.nsamp.toNat ≤ (withSamples 0 [5, 0, 5]).params.nsMax := by decide +kernel

theorem witness_ExtractFollowsItsLoop :
    ∀ cells ∈ [[], [0x7FFFFFFF], [1, 0x7FFFFFFF], [1, 1, 0x7FFFFFFF]],
      (withIntervals 25 cells).csr.nint.toNat = cells.length ∧
      (withIntervals 25 cells).csr.nint.toNat ≤ (withIntervals 25 cells).params.niMax ∧
      ∀ k < (withIntervals 25 cells).csr.nint.toNat, 1 ≤ ((withIntervals 25 cells).ivl k).toNat ∧
        ((withIntervals 25 cells).ivl k).toNat ≤ 0x7FFFFFFF := by decide +kernel

theorem witness_DemodIsRectifyPeakfindExtract :
    (withSamples 0 [5, 0, 5, 0, 5]).params.valid = true ∧
      (withSamples 0 [5, 0, 5, 0, 5]).csr.nsamp.toNat ≤ (withSamples 0 [5, 0, 5, 0, 5]).params.nsMax :=
    by decide +kernel

theorem witness_DecodeFollowsTheDatapath :
    (Instr.decodeAba, abaFraming) ∈ framings ∧
      (withSymbols emptyAba).csr.bslen.toNat ≤ (withSymbols emptyAba).params.bsMax ∧
      decodeByPositions abaFraming (withSymbols emptyAba).bitstring = .ok [0x3B, 0x3F] ∧
      decodeByPositions iataFraming (withSymbols emptyAba).bitstring = .error .noStartSentinel :=
  ⟨by decide, by decide +kernel, by decide +kernel, by decide +kernel⟩

/-- An encoded track between a few zeros. -/
def between (b : List Bool) : List Bool := [false, false, false] ++ b ++ [false, false]
theorem witness_EncodedTracksDecode_aba :
    let s := withSymbols (between (encodedTrack abaFraming [1, 2]))
    (Instr.decodeAba, abaFraming) ∈ framings ∧
      s.csr.bslen.toNat ≤ s.params.bsMax ∧ (∀ v ∈ [1, 2], isDataValue abaFraming v) ∧
      s.bitstring = [false, false, false] ++ encodedTrack abaFraming [1, 2] ++ [false, false] ∧
      ∀ k < 3, matchesAt s.bitstring k abaFraming.startBits = false := by
  refine ⟨by decide, by decide +kernel, ?_, by decide +kernel, by decide +kernel⟩
  simp only [isDataValue]
  decide +kernel
theorem witness_EncodedTracksDecode_iata :
    let s := withSymbols (encodedTrack iataFraming [])
    (Instr.decodeIata, iataFraming) ∈ framings ∧
      s.csr.bslen.toNat ≤ s.params.bsMax ∧ s.bitstring = [] ++ encodedTrack iataFraming [] ++ [] :=
  ⟨by decide, by decide +kernel, by decide +kernel⟩

/-- The first and the last symbol of the data chunks and of the LRC field. -/
theorem witness_FlippedBitsAreDetected :
    ∀ n ∈ [5, 14, 20, 24],
      let s := withSymbols (between ((encodedTrack abaFraming [1, 2]).modify n not))
      s.csr.bslen.toNat ≤ s.params.bsMax ∧ n < (encodedTrack abaFraming [1, 2]).length ∧
        s.bitstring = [false, false, false] ++ (encodedTrack abaFraming [1, 2]).modify n not ++ [false, false] ∧
        (∀ k < 3, matchesAt s.bitstring k abaFraming.startBits = false) ∧
        ((abaFraming.width ≤ n ∧ n < abaFraming.width * 3) ∨ abaFraming.width * 4 ≤ n) := by decide +kernel

theorem witness_ComputeOperationsIgnoreStatus :
    Instr.demod ∈ [Instr.nop, .revbyte, .revbits, .rectify, .peakfind, .extract, .demod, .decodeAba, .decodeIata] ∧
      ∃ t : Track, Instr.getbit 3 ∈ [Instr.getbit t.field, .setbit t.field, .revtrack t.field, .unpack t.field] :=
  ⟨by decide +kernel, .t3, by decide +kernel⟩

theorem witness_TransactionsStartWithTheirFrame :
    let s := tuned (starting 0x8500003A [.block] []) fun c => { c with xtxlen := 8 }
    encode (.devXcmd 0x85) = .command 0x8500003A#32 ∧ firstCode s.params (.devXcmd 0x85) = some 0x85 ∧
      s.seq = .txn 0x8500003A#32 .start .empty ∧ s.event = some .block ∧ s.csr.xtxlen.toNat ≤ 8 := by decide +kernel
theorem witness_TransactionsStartWithTheirFrame_empty_agenda :
    let s := tuned (starting 0x00001032 [] []) fun c => { c with xtxlen := 15 }
    encode (.devReadiso true) = .command 0x00001032#32 ∧ firstCode s.params (.devReadiso true) = some 0x61 ∧
      s.seq = .txn 0x00001032#32 .start .empty ∧ s.event = none ∧ 8 < s.csr.xtxlen.toNat := by decide +kernel

theorem witness_WireFramesAreSentByteByByte :
    (0x72#8, Instr.wireRead) ∈ commandCodes ∧ (0x6C#8, Instr.wireLzquery) ∈ commandCodes ∧
      ∀ b ∈ [FrameByte.esc, .code],
        (atPoint 0x7200003A (.frame 0x1B72 b) .take []).seq =
          .txn (commandWord 0x72 false 0 0x3A) (.frame (0x1B#8 ++ 0x72#8) b) .empty ∧
        (atPoint 0x7200003A (.frame 0x1B72 b) .take []).event = some .take := by decide +kernel
/-- Every transaction has a position behind its frame at the default parameters. -/
theorem witness_WireFramesAreSentByteByByte_points :
    State.reset.params.valid = true ∧
      pointAfterFrame standardParams csrAtReset 0x61 .devReset = some (.settle 100) ∧
      pointAfterFrame standardParams csrAtReset 0x65 .devCommtest = some .commtest ∧
      pointAfterFrame standardParams csrAtReset 0x61 (.devReadiso true) = some (.settle 100) ∧
      pointAfterFrame standardParams csrAtReset 0x6D (.devReadraw true) = some (.scan 0) ∧
      pointAfterFrame standardParams csrAtReset 0x77 .devWriteiso = some .writeStart ∧
      pointAfterFrame standardParams csrAtReset 0x63 (.devErase 7) = some (.eraseMask 7) ∧
      pointAfterFrame standardParams csrAtReset 0x76 .devFirmware = some (.reply 9) ∧
      pointAfterFrame standardParams { csrAtReset with xtxlen := 1 } 0x85 (.devXcmd 0x85) = some (.payload 0) ∧
      pointAfterFrame standardParams { csrAtReset with xrxlen := 1 } 0x85 (.devXcmd 0x85) = some (.reply 1) := by
  decide +kernel
/-- The transactions with nothing to wait for behind the frame. -/
theorem witness_WireFramesAreSentByteByByte_nothing_to_wait_for :
    let s (cmd : Word) (w : FrameWord) : State :=
      { atPoint cmd (.frame w .code) take [] with params := { standardParams with settleTicks := 0, startScan := 0 } }
    (s 0x30 0x1B61).params.valid = true ∧ (s 0x30 0x1B61).params.settleTicks = 0 ∧ (s 0x32 0x1B72).params.startScan = 0 ∧
      (s 0x30 0x1B61).seq = .txn 0x00000030#32 (.frame (0x1B#8 ++ 0x61#8) .code) .empty ∧
      (s 0x1032 0x1B61).seq = .txn 0x00001032#32 (.frame (0x1B#8 ++ 0x61#8) .code) .empty ∧
      (s 0x32 0x1B72).seq = .txn 0x00000032#32 (.frame (0x1B#8 ++ 0x72#8) .code) .empty ∧
      (s 0x7200003A 0x1B72).csr.xtxlen = 0 ∧ (s 0x7200003A 0x1B72).csr.xrxlen = 0 ∧
      encode .devReset = .command 0x00000030#32 ∧ encode (.devReadiso true) = .command 0x00001032#32 ∧
      encode (.devReadiso false) = .command 0x00000032#32 ∧ encode (.devXcmd 0x72) = .command 0x7200003A#32 := by
  decide +kernel

theorem witness_WireStepsAreTransactionSteps :
    encode (.devReadraw true) = .command 0x00001033#32 ∧ firstCode standardParams (.devReadraw true) ≠ none ∧
      (atPoint 0x00001033 (.frame 0x1B61 .code) .take []).seq = .txn 0x00001033#32 (.frame 0x1B61 .code) .empty ∧
      decodeFrame 0x1B61#16 = .ok .wireReset := by decide +kernel

theorem witness_TransportErrorEndsTheTransaction_receiving :
    (atPoint 0x00000032 (.scan 0) .error [0x73]).Consistent ∧ (Point.scan 0).waiting = .recv ∧
      (atPoint 0x00000032 (.scan 0) .error [0x73]).agenda = [.error] :=
  ⟨scanning_is_consistent _ _, rfl, rfl⟩
theorem witness_TransportErrorEndsTheTransaction_sending :
    (atPoint 0x00000032 (.frame 0x1B72 .esc) .error []).Consistent ∧ (Point.frame 0x1B72 .esc).waiting = .send ∧
      (atPoint 0x00000032 (.frame 0x1B72 .esc) .error []).agenda = [.error] :=
  ⟨sending_is_consistent _ _, rfl, rfl⟩

/-- The reset state is consistent whatever moves are to come. -/
theorem idle_is_consistent (agenda : List Action) : { State.reset with agenda := agenda }.Consistent where
  busy_iff := by simp [State.reset, csrAtReset, statusAtReset]
  waitTx_eq := by simp [State.reset, csrAtReset, statusAtReset, State.waiting]
  waitRx_eq := by simp [State.reset, csrAtReset, statusAtReset, State.waiting]
  settling_iff := by simp [State.reset, csrAtReset, statusAtReset, State.waiting]
  running := by simp [State.reset, csrAtReset, statusAtReset]
  err_iff := by simp [State.reset, csrAtReset, statusAtReset]
  response_fits := by simp [State.reset, csrAtReset]
  accepted := trivial
theorem witness_UnawaitedEventsChangeNothing_take_and_tick :
    (atPoint 0x00000032 (.scan 0) .take [0x73]).Consistent ∧
      ¬ (atPoint 0x00000032 (.scan 0) .take [0x73]).awaits .take ∧
      ¬ (atPoint 0x00000032 (.scan 0) .tick [0x73]).awaits .tick :=
  ⟨scanning_is_consistent _ _, by simp [State.awaits, State.waiting, atPoint, Point.waiting],
    by simp [State.awaits, State.waiting, atPoint, Point.waiting]⟩
theorem witness_UnawaitedEventsChangeNothing_deliver :
    (atPoint 0x00000032 (.scan 0) .deliver []).Consistent ∧
      ¬ (atPoint 0x00000032 (.scan 0) .deliver []).awaits .deliver ∧
      (atPoint 0x00000032 (.frame 0x1B72 .esc) .deliver [0x73]).Consistent ∧
      ¬ (atPoint 0x00000032 (.frame 0x1B72 .esc) .deliver [0x73]).awaits .deliver :=
  ⟨scanning_is_consistent _ _, by simp [State.awaits, atPoint], sending_is_consistent _ _,
    by simp [State.awaits, State.waiting, atPoint, Point.waiting]⟩
theorem witness_UnawaitedEventsChangeNothing_error :
    { State.reset with agenda := [.error] }.Consistent ∧ ¬ { State.reset with agenda := [.error] }.awaits .error :=
  ⟨idle_is_consistent _, by simp [State.awaits, State.waiting, State.reset]⟩

theorem witness_SettleWaitCountsTicks :
    (encode .devReset = .command 0x00000030#32 ∧ encode (.devReadiso true) = .command 0x00001032#32 ∧
      encode (.devReadraw true) = .command 0x00001033#32) ∧
      ∀ left ∈ [1, 2],
        (atPoint 0x00000030 (.settle left) .tick []).seq = .txn 0x00000030#32 (.settle left) .empty ∧
        (atPoint 0x00001032 (.settle left) .tick []).seq = .txn 0x00001032#32 (.settle left) .empty ∧
        (atPoint 0x00001033 (.settle left) .tick []).seq = .txn 0x00001033#32 (.settle left) .empty ∧
        (atPoint 0x00000030 (.settle left) .tick []).event = some .tick := by decide +kernel

/-- The state and the operands; each clause's position and byte, at the bounds of the START scan. -/
theorem witness_ReadHeadersAreChecked :
    encode (.devReadiso false) = .command 0x00000032#32 ∧
      (atPoint 0x00000032 (.scan 2) .deliver [0x00]).event = some .deliver ∧
      (atPoint 0x00000032 (.scan 2) .deliver [0x00]).rx = [0x00] ∧
      0 < (atPoint 0x00000032 (.scan 2) .deliver [0x00]).params.readTrailerLen ∧
      1 + 1 < (atPoint 0x00000032 (.scan 1) .deliver [0x00]).params.startScan ∧
      (atPoint 0x00000032 (.scan 2) .deliver [0x00]).params.startScan ≤ 2 + 1 := by decide +kernel
/-- A retried read whose scan fails in its last attempt, before its last, and without a limit. -/
theorem witness_ReadHeadersAreChecked_retried :
    let s (a : Nat) (m : BitVec 8) : State := inAttempt (atPoint 0x00001032 (.scan 2) .deliver [0x00]) a m
    encode (.devReadiso true) = .command 0x00001032#32 ∧
      (s 2 2).seq = .txn 0x00001032#32 (.scan 2) { attempts := 2, maxAtt := 2 } ∧
      ((s 2 2).locals.maxAtt ≠ 0 ∧ (s 2 2).locals.maxAtt.toNat ≤ (s 2 2).locals.attempts) ∧
      (s 1 2).locals.attempts < (s 1 2).locals.maxAtt.toNat ∧ (s 300 0).locals.maxAtt = 0 := by decide +kernel
theorem witness_ReadHeadersAreChecked_headers :
    (atPoint 0x00000032 (.headerEsc .t3) .deliver [0x1B]).seq = .txn 0x00000032#32 (.headerEsc .t3) .empty ∧
      (atPoint 0x00000032 (.headerNum .t3) .deliver [0x03]).rx = Track.wireNumber .t3 :: [] ∧
      0x04#8 ≠ Track.wireNumber .t3 := by decide +kernel

/-- A full track, a track with one byte of room, and the three kinds of byte. -/
theorem witness_TrackBytesAreCountedAndBounded :
    let s (n : Byte) : State := tuned (atPoint 0x00000033 (.trackData .t1) .deliver [0x41]) fun c =>
      { c with tk1 := { cap := 4, len := n, wire := 0xFFFF } }
    encode (.devReadraw false) = .command 0x00000033#32 ∧
      (s 4).seq = .txn 0x00000033#32 (.trackData .t1) .empty ∧ (s 4).event = some .deliver ∧ (s 4).rx = [0x41] ∧
      0 < (s 4).params.readTrailerLen ∧ (s 4).params.wireW ≤ 16 ∧ 0x41#8 ≠ 0x3F#8 ∧ 0x41#8 ∉ (s 4).params.errDelims ∧
      0x1B#8 ∈ (s 4).params.errDelims ∧ ((s 4).tk .t1).cap.toNat ≤ ((s 4).tk .t1).len.toNat ∧
      ((s 3).tk .t1).len.toNat < ((s 3).tk .t1).cap.toNat := by decide +kernel

theorem witness_LastTrailerByteDecidesTheRead :
    let s (a : Nat) (m : BitVec 8) : State :=
      tuned (inAttempt (atPoint 0x00001032 (.reply 1) .deliver [0x41]) a m) fun c => { c with resplen := 15 }
    encode (.devReadiso true) = .command 0x00001032#32 ∧
      (s 2 2).seq = .txn 0x00001032#32 (.reply 1) { attempts := 2, maxAtt := 2 } ∧
      (s 2 2).event = some .deliver ∧ (s 2 2).rx = [0x41] ∧ (s 2 2).csr.resplen.toNat < 16 ∧
      ((s 2 2).locals.maxAtt ≠ 0 ∧ (s 2 2).locals.maxAtt.toNat ≤ (s 2 2).locals.attempts) ∧
      (s 1 2).locals.attempts < (s 1 2).locals.maxAtt.toNat ∧ (s 300 0).locals.maxAtt = 0 := by decide +kernel

/-- A last trailer byte that is OK, with and without a track error, in a read without a retry. -/
theorem witness_LastTrailerByteDecidesTheRead_without_retry :
    let s (k : BitVec 3) : State := tuned (atPoint 0x00000032 (.reply 1) .deliver [0x30]) fun c =>
      { c with resplen := 2, status := { c.status with tkerr := k } }
    encode (.devReadiso false) = .command 0x00000032#32 ∧ (s 0).seq = .txn 0x00000032#32 (.reply 1) .empty ∧
      (s 0).event = some .deliver ∧ (s 0).rx = [0x30] ∧ (s 0).csr.resplen.toNat < 16 ∧
      (s 0).csr.status.tkerr = 0 ∧ (s 4).csr.status.tkerr ≠ 0 := by decide +kernel

/-- A trailer byte before the last, in a retried read with a track error. -/
theorem witness_LastTrailerByteDecidesTheRead_before_the_last :
    let s : State := tuned (inAttempt (atPoint 0x00001033 (.reply 2) .deliver [0x1B]) 1 2) fun c =>
      { c with resplen := 1, status := { c.status with tkerr := 4 } }
    encode (.devReadraw true) = .command 0x00001033#32 ∧
      s.seq = .txn 0x00001033#32 (.reply 2) { attempts := 1, maxAtt := 2 } ∧ s.event = some .deliver ∧ s.rx = [0x1B] ∧
      s.csr.resplen.toNat < 16 := by decide +kernel

theorem witness_StreamsKeepTheirOrder :
    (∃ t, step (atPoint 0x00000032 (.scan 0) .deliver [0x73]) = .next t) ∧
      (atPoint 0x00000032 (.scan 0) .deliver [0x73]).Consistent ∧
      (atPoint 0x00000032 (.scan 0) .deliver [0x73]).waiting = .recv ∧
      (∃ t, step (atPoint 0x00000032 (.frame 0x1B72 .esc) .take []) = .next t) ∧
      (atPoint 0x00000032 (.frame 0x1B72 .esc) .take []).Consistent ∧
      (atPoint 0x00000032 (.frame 0x1B72 .esc) .take []).waiting = .send :=
  ⟨next_of_after (by decide +kernel), scanning_is_consistent _ _, rfl, next_of_after (by decide +kernel),
    sending_is_consistent _ _, rfl⟩

theorem witness_DeviceResetRunsToCompletion :
    let s := starting 0x00000030 ([block, .take, .take] ++ List.replicate 100 tick) []
    s.seq = .txn 0x00000030#32 .start .empty ∧
      s.agenda = [block, .take, .take] ++ List.replicate s.params.settleTicks tick ++ [] := by decide +kernel

theorem witness_CommunicationTestResynchronises :
    let s := starting 0x00000031 ([block, .take, .take] ++ List.replicate 3 deliver) [0x00, 0x41, 0x79]
    s.seq = .txn 0x00000031#32 .start .empty ∧ s.params.commtestOk ∉ [0x00#8, 0x41#8] ∧
      s.rx = [0x00, 0x41] ++ s.params.commtestOk :: [] ∧
      s.agenda = [block, .take, .take] ++ List.replicate ([0x00#8, 0x41#8].length + 1) deliver ++ [] :=
    by decide +kernel

theorem witness_WriteTransactionsSendTheFrame :
    ∀ raw ∈ [false, true],
      let s (n : Nat) : State := (tuned (starting (if raw then 0x00000035#32 else 0x00000034#32)
        (block :: List.replicate n take ++ List.replicate 2 deliver) [0x1B, 0x30]) fun c =>
          { c with tk1 := { c.tk1 with len := 2 } }).writeTrk .t1 0 [0x31, 0x32]
      let n := if raw then 16 else 13
      (s n).seq = .txn (if raw then 0x00000035#32 else 0x00000034#32) .start .empty ∧
        [0x1B#8, 0x30#8].length = (s n).params.wconfLen ∧ (s n).rx = [0x1B, 0x30] ++ [] ∧
        (s n).agenda = block :: List.replicate ((s n).writeFrame raw).length take ++
          List.replicate [0x1B#8, 0x30#8].length deliver ++ [] := by decide +kernel

theorem witness_EraseSendsItsMask :
    let s := starting 0x07000036 [block, .take, .take, .take, .deliver, .deliver] [0x1B, 0x41]
    s.seq = .txn (commandWord 0x07 false 0 0x36) .start .empty ∧ [0x1B#8, 0x41#8].length = s.params.eraseLen ∧
      s.rx = [0x1B, 0x41] ++ [] ∧
      s.agenda = [block, .take, .take, .take] ++ List.replicate [0x1B#8, 0x41#8].length deliver ++ [] :=
    by decide +kernel

theorem witness_QueriesCheckTheirResponse :
    let s (cmd : Word) (n : Nat) (rx : List Byte) : State :=
      starting cmd ([block, .take, .take] ++ List.replicate n deliver) rx
    ((0x00000037#32, 0x74#8, (s 0x37 3 [0x1B, 0x33, 0x53]).params.modelLen) = (0x00000037#32, 0x74#8, 3) ∧
      (s 0x37 3 [0x1B, 0x33, 0x53]).agenda = [block, .take, .take] ++ List.replicate 3 deliver ++ []) ∧
    ((s 0x38 9 (List.replicate 9 0x1B)).params.fwLen = 9 ∧
      (s 0x38 9 (List.replicate 9 0x1B)).rx = List.replicate 9 0x1B ++ []) ∧
    ((s 0x39 3 [0x1B, 0x3D, 0x16]).params.lzLen = 3 ∧ (s 0x39 3 [0x1B, 0x3D, 0x16]).params.lzCmd = 0x6C ∧
      (s 0x39 3 [0x1B, 0x3D, 0x16]).seq = .txn 0x00000039#32 .start .empty) := by decide +kernel

theorem witness_GenericCommandSendsItsPayload :
    let s := tuned (starting 0x8500003A ([block, .take, .take] ++ List.replicate 8 take ++
      List.replicate 15 deliver) (List.replicate 15 0x30)) fun c => { c with xtxlen := 8, xrxlen := 15, xchk := true }
    s.seq = .txn (commandWord 0x85 false 0 0x3A) .start .empty ∧ s.csr.xtxlen.toNat ≤ 8 ∧
      (List.replicate 15 0x30#8).length = s.csr.xrxlen.toNat ∧ s.rx = List.replicate 15 0x30 ++ [] ∧
      s.agenda = [block, .take, .take] ++ List.replicate s.csr.xtxlen.toNat take ++
        List.replicate (List.replicate 15 0x30#8).length deliver ++ [] := by decide +kernel
theorem witness_GenericCommandSendsItsPayload_no_response :
    let s := starting 0x8500003A [block, .take, .take] []
    s.seq = .txn (commandWord 0x85 false 0 0x3A) .start .empty ∧ s.csr.xtxlen.toNat ≤ 8 ∧
      ([] : List Byte).length = s.csr.xrxlen.toNat ∧
      s.agenda = [block, .take, .take] ++ List.replicate s.csr.xtxlen.toNat take ++
        List.replicate ([] : List Byte).length deliver ++ [] := by decide +kernel

/-- The read "good" of 95_test_vectors, table S1, with two bytes before START. -/
theorem witness_GoodReadStoresTheTracks :
    let resp : List Byte := [0x1B, 0x00] ++ [0x73#8] ++ wireTrack .t1 [0x41, 0x42] ++ wireTrack .t2 [0x31, 0x32] ++
      wireTrack .t3 [] ++ [0x1C, 0x1B, 0x30]
    let s := starting 0x00000032 ([block, .take, .take] ++ List.replicate resp.length deliver) resp
    s.seq = .txn 0x00000032#32 .start .empty ∧ [0x1B#8, 0x00#8].length < s.params.startScan ∧
      0x73#8 ∉ [0x1B#8, 0x00#8] ∧ isTrackData s.params [0x41, 0x42] ∧ isTrackData s.params [0x31, 0x32] ∧
      isTrackData s.params [] ∧ s.params.wireW ≤ 16 ∧ [0x1C#8, 0x1B#8, 0x30#8].length = s.params.readTrailerLen ∧ s.rx = resp ++ [] ∧
      s.agenda = [block, .take, .take] ++ List.replicate resp.length deliver ++ [] := by
  refine ⟨rfl, by decide +kernel, by decide +kernel, ?_, ?_, ?_, by decide +kernel, by decide +kernel,
    by decide +kernel, by decide +kernel⟩ <;>
    simp [isTrackData, starting, State.reset, standardParams]

/-- The moves of one failing attempt at the default parameters. -/
def failingAttempt : List Action :=
  [take, .take] ++ List.replicate 100 tick ++ [take, .take] ++ List.replicate 3 deliver
/-- The last allowed attempt, one before it, and no limit. -/
theorem witness_FailingReadsAreRetriedUpToTheLimit :
    ∀ km ∈ [(2, 2), (1, 2), (2, 0)],
      let s : State := tuned (starting 0x00001032 (block :: (List.replicate km.1 failingAttempt).flatten)
        (List.replicate (3 * km.1) 0x00)) fun c => { c with ctrl := { c.ctrl with maxAtt := BitVec.ofNat 8 km.2 } }
      s.seq = .txn 0x00001032#32 .start .empty ∧ 1 ≤ km.1 ∧
        (s.csr.ctrl.maxAtt = 0 ∨ km.1 ≤ s.csr.ctrl.maxAtt.toNat) ∧ 0x73#8 ∉ List.replicate (3 * km.1) 0x00#8 ∧
        (List.replicate (3 * km.1) 0x00#8).length = km.1 * s.params.startScan ∧
        s.rx = List.replicate (3 * km.1) 0x00 ++ [] ∧
        failingAttempt = [take, .take] ++ List.replicate s.params.settleTicks tick ++ [take, .take] ++
          List.replicate s.params.startScan deliver ∧
        s.agenda = block :: (List.replicate km.1 failingAttempt).flatten ++ [] := by decide +kernel

end Sys2Proof.Tests
end

/-! ### The moves of the host and of the device -/

namespace Sys2Proof.Machine

section HostMoves
variable (s : State)

@[simp] theorem setHaz_agenda : s.setHaz.agenda = s.agenda := rfl
@[simp] theorem setCmdOvr_agenda : s.setCmdOvr.agenda = s.agenda := rfl
@[simp] theorem softReset_agenda : s.softReset.agenda = s.agenda := rfl
@[simp] theorem reply_agenda (data : Word) (busError : Bool) : (s.reply data busError).agenda = s.agenda := rfl

@[simp] theorem issue_agenda (v : Word) : (s.issue v).agenda = s.agenda := by
  simp only [State.issue]
  split <;> rfl

@[simp] theorem writeCsr_agenda (offset : Nat) (v : Word) : (s.writeCsr offset v).agenda = s.agenda := by
  unfold State.writeCsr
  split
  case h_1 => split <;> simp
  case h_2 => exact issue_agenda s v
  all_goals rfl

@[simp] theorem writeCell_agenda (w : Window) (a : Nat) (v : Word) : (s.writeCell w a v).agenda = s.agenda := by
  cases w with
  | csr => exact writeCsr_agenda s a v
  | trk _ | dec | bs | smp | ivl => rfl

@[simp] theorem writeWhileBusy_agenda (a : Nat) (v : Word) : (s.writeWhileBusy a v).agenda = s.agenda := by
  unfold State.writeWhileBusy
  split_ifs <;> simp

@[simp] theorem memRead_agenda (a : Word) (n : Width) : (s.memRead a n).agenda = s.agenda := by
  unfold State.memRead
  split
  · simp
  · split <;> simp

@[simp] theorem memWrite_agenda (a : Word) (n : Width) (v : Word) : (s.memWrite a n v).agenda = s.agenda := by
  unfold State.memWrite
  split
  · simp
  · split <;> simp

/-- No host access, not even a soft reset, touches the moves to come (20_memory R103). -/
@[simp] theorem hostAccess_agenda (a : Access) : (s.hostAccess a).agenda = s.agenda := by
  cases a with
  | read a n => exact memRead_agenda s a n
  | write a n v => exact memWrite_agenda s a n v

variable {s}

theorem step_of_host {a : Access} {rest : List Action} (h : s.agenda = .host a :: rest) :
    step s = .next (s.hostAccess a).pop := by
  simp [step, State.event, h]

theorem step_of_device {b : Byte} {rest : List Action} (h : s.agenda = .device b :: rest) :
    step s = .next (s.deviceByte b).pop := by
  simp [step, State.event, h]
end HostMoves

/-- Settles O8: a step at a host's or a device's move makes that move, which leaves the agenda, and takes it off. -/
theorem hostAndDeviceMovesTakeEffect : Obligations.HostAndDeviceMovesTakeEffect := by
  unfold Obligations.HostAndDeviceMovesTakeEffect
  constructor
  · intro s a rest h
    simp [step_of_host h, State.pop, h]
  · intro s b rest h
    simp [step_of_device h, State.pop, State.deviceByte, h]

end Sys2Proof.Machine

/-! ### Decoding the command word of an instruction -/

namespace Sys2Proof

section CommandWords
variable (arg : Byte) (rty : Bool) (trk : BitVec 2) (opc : Byte)

@[simp] theorem opcField_commandWord : opcField (commandWord arg rty trk opc) = opc :=
  Laws.RowMatch.opcField_commandWord arg rty trk opc

/-- The layout of a command word, bit by bit (30_encoding R120). -/
theorem getLsbD_commandWord (k : Nat) :
    (commandWord arg rty trk opc).getLsbD k =
      if k < 8 then opc.getLsbD k
      else if k < 10 then trk.getLsbD (k - 8)
      else if k = 12 then rty
      else if k < 24 then false
      else arg.getLsbD (k - 24) := by
  simp only [commandWord, BitVec.getLsbD_append, BitVec.getLsbD_ofBool, BitVec.getLsbD_zero]
  grind

@[simp] theorem trkField_commandWord : trkField (commandWord arg rty trk opc) = trk := by
  apply BitVec.eq_of_getLsbD_eq
  intro k hk
  simp only [trkField, BitVec.getLsbD_extractLsb', getLsbD_commandWord]
  grind

@[simp] theorem rtyField_commandWord : rtyField (commandWord arg rty trk opc) = rty := by
  simp only [rtyField, getLsbD_commandWord]
  grind

@[simp] theorem argField_commandWord : argField (commandWord arg rty trk opc) = arg := by
  apply BitVec.eq_of_getLsbD_eq
  intro k hk
  simp only [argField, BitVec.getLsbD_extractLsb', getLsbD_commandWord]
  grind

@[simp] theorem reservedClear_commandWord : reservedClear (commandWord arg rty trk opc) = true := by
  simp only [reservedClear, Bool.and_eq_true, beq_iff_eq]
  constructor
  all_goals
    apply BitVec.eq_of_getLsbD_eq
    intro k hk
    simp only [BitVec.getLsbD_extractLsb', getLsbD_commandWord, BitVec.getLsbD_zero]
    grind
end CommandWords

section Rows
variable (opc : Byte)

theorem decodePlain_commandWord (i : Instr) : decodePlain i (commandWord 0#8 false 0#2 opc) = .ok i := by
  simp [decodePlain]

theorem decodeOnTrack_commandWord (f : BitVec 2 → Instr) (trk : BitVec 2) :
    decodeOnTrack f (commandWord 0#8 false trk opc) = .ok (f trk) := by
  simp [decodeOnTrack]

theorem decodeRetriable_commandWord (f : Bool → Instr) (rty : Bool) :
    decodeRetriable f (commandWord 0#8 rty 0#2 opc) = .ok (f rty) := by
  simp [decodeRetriable]

theorem decodeWithArg_commandWord (f : Byte → Instr) (arg : Byte) :
    decodeWithArg f (commandWord arg false 0#2 opc) = .ok (f arg) := by
  simp [decodeWithArg]
end Rows

theorem decodeCommand_commandWord (arg : Byte) (rty : Bool) (trk : BitVec 2) (opc : Byte) :
    decodeCommand (commandWord arg rty trk opc) = decodeOpc (commandWord arg rty trk opc) := by
  simp [decodeCommand]

/-- The command word of an instruction decodes to it (30_encoding R121, R127). -/
theorem decodeCommand_of_encode {i : Instr} {cmd : Word} (h : encode i = .command cmd) :
    decodeCommand cmd = .ok i := by
  cases i with
  | nop | revbyte | revbits | rectify | peakfind | extract | demod | decodeAba | decodeIata | devReset | devCommtest
  | devWriteiso | devWriteraw | devModel | devFirmware | devLzquery =>
    obtain rfl := CodeWord.command.inj h
    simp [decodeCommand_commandWord, decodeOpc, decodePlain_commandWord]
  | getbit | setbit | revtrack | unpack =>
    obtain rfl := CodeWord.command.inj h
    simp [decodeCommand_commandWord, decodeOpc, decodeOnTrack_commandWord]
  | devReadiso | devReadraw =>
    obtain rfl := CodeWord.command.inj h
    simp [decodeCommand_commandWord, decodeOpc, decodeRetriable_commandWord]
  | devErase | devXcmd =>
    obtain rfl := CodeWord.command.inj h
    simp [decodeCommand_commandWord, decodeOpc, decodeWithArg_commandWord]
  | _ => nomatch h

/-! ### Decoding a wire frame -/

/-- A frame word is its two bytes, the first one high. -/
theorem frameWord_eq_append (w : FrameWord) : w = w.first ++ w.second := by
  apply BitVec.eq_of_getLsbD_eq
  intro k hk
  simp only [FrameWord.first, FrameWord.second, BitVec.getLsbD_append, BitVec.getLsbD_extractLsb']
  grind

/-- A frame that decodes is ESC and a listed code (30_encoding R129). -/
theorem decodeFrame_ok {w : FrameWord} {j : Instr} (h : decodeFrame w = .ok j) :
    w = commandFrame w.second ∧ decodeCode w.second = .ok j := by
  simp only [decodeFrame, decodeFrameBytes] at h
  split at h
  · rename_i hesc
    refine ⟨?_, h⟩
    rw [commandFrame, ← hesc]
    exact frameWord_eq_append w
  · cases h

end Sys2Proof

/-! ### The step of a frame and of its transaction -/

namespace Sys2Proof.Machine

/-- A listed code as an instruction is the emission of its frame (30_encoding R129). -/
theorem exec_of_decodeCode {code : Byte} {j : Instr} (h : decodeCode code = .ok j) (s : State) :
    exec j s = .next (emitFrame code s) := by
  have code_eq {n : Nat} (hn : code.toNat = n) : code = BitVec.ofNat 8 n := by simp [← hn]
  unfold decodeCode at h
  split at h
  case h_22 => cases h
  all_goals
    cases h
    rw [code_eq ‹_›]
    rfl

section InFrame
variable {s : State} {cmd : Word} {b : FrameByte} {l : Locals}

/-- On the port that holds the frame, its emission is a step of the frame and then of the command word's transaction. -/
theorem emitFrame_of_held {code : Byte} (hseq : s.seq = .txn cmd (.frame (commandFrame code) b) l) :
    emitFrame code s =
      frameStep (commandFrame code) b (resumeTransaction cmd (commandFrame code)) s := by
  simp [emitFrame, hseq]

/-- What a running transaction does after its frame is what its instruction does. -/
theorem resumeTransaction_of_encode {i : Instr} (henc : encode i = .command cmd) (w : FrameWord) :
    resumeTransaction cmd w = continueAfterFrame i w := by
  funext s
  simp [resumeTransaction, decodeCommand_of_encode henc]

/-- A transaction in a command frame steps the frame and then goes on with its own pseudocode (43_serial_protocol
R270). -/
theorem exec_transaction_in_frame {w : FrameWord} {i : Instr} (hcode : firstCode s.params i ≠ none)
    (hseq : s.seq = .txn cmd (.frame w b) l) : exec i s = .next (frameStep w b (continueAfterFrame i w) s) := by
  cases i with
  | devReset | devCommtest | devReadiso | devReadraw | devWriteiso | devWriteraw | devErase | devModel | devFirmware
  | devLzquery | devXcmd =>
    refine congrArg Host.Outcome.next ?_
    rw [inTransaction_of_txn s _ l hseq, transactionStep_frame hseq]
    rfl
  | _ => exact absurd rfl hcode
end InFrame

/-- Settles O45: both steps are the frame's step followed by what the transaction's pseudocode does after the frame. -/
theorem wireStepsAreTransactionSteps : Obligations.WireStepsAreTransactionSteps := by
  unfold Obligations.WireStepsAreTransactionSteps
  intro s i j cmd w b l henc hcode hseq hdec
  obtain ⟨hw, hj⟩ := decodeFrame_ok hdec
  have hheld : s.seq = .txn cmd (.frame (commandFrame w.second) b) l := hw ▸ hseq
  calc exec j s
      = .next (emitFrame w.second s) := exec_of_decodeCode hj s
    _ = .next (frameStep w b (resumeTransaction cmd w) s) := by rw [emitFrame_of_held hheld, ← hw]
    _ = .next (frameStep w b (continueAfterFrame i w) s) := by rw [resumeTransaction_of_encode henc]
    _ = exec i s := (exec_transaction_in_frame hcode hseq).symm

end Sys2Proof.Machine

/-! ### What every piece of a transaction's pseudocode keeps -/

namespace Sys2Proof.Machine

/-- The predicate is kept by each update that the pseudocode of a transaction is made of (43_serial_protocol, 44_retry).
Whatever has this property is kept by every step of every transaction (`exec_transaction`, `emitFrame`). -/
structure KeptByTransactions (P : State → Prop) : Prop where
  moveTo : ∀ {s} p, P s → P (s.moveTo p)
  completeWith : ∀ {s} e, P s → P (s.completeWith e)
  sendByte : ∀ {s} b, P s → P (s.sendByte b)
  takeFromStream : ∀ {s : State} rx, P s → P { s with rx := rx }
  setLocals : ∀ {s} l, P s → P (s.setLocals l)
  setAttempts : ∀ {s} a, P s → P (s.setAttempts a)
  setLaststat : ∀ {s} b, P s → P (s.setLaststat b)
  clearReply : ∀ {s}, P s → P s.clearReply
  appendReply : ∀ {s} b, P s → P (s.appendReply b)
  clearForRead : ∀ {s}, P s → P s.clearForRead
  trackError : ∀ {s} t, P s → P (s.trackError t)
  storeTrackByte : ∀ {s} t b, P s → P (s.storeTrackByte t b)

namespace KeptByTransactions
variable {P : State → Prop} {s : State} (hP : KeptByTransactions P)
include hP

/-! The shared pieces. -/

theorem sendCmd (code : Byte) (h : P s) : P (s.sendCmd code) := hP.moveTo _ h

theorem settleWait {after : State → State} (hafter : ∀ s, P s → P (after s)) (h : P s) : P (s.settleWait after) := by
  unfold State.settleWait
  split
  · exact hafter s h
  · exact hP.moveTo _ h

theorem receiveReply (n : Nat) {after : State → State} (hafter : ∀ s, P s → P (after s)) (h : P s) :
    P (s.receiveReply n after) := by
  unfold State.receiveReply
  split
  · exact hafter s h
  · exact hP.moveTo _ h

theorem receiveAndComplete (n : Nat) (h : P s) : P (s.receiveReply n fun s => s.completeWith .none) :=
  hP.receiveReply n (fun _ => hP.completeWith _) h

theorem replyReceived {finish : Byte → State → State} (hfinish : ∀ b s, P s → P (finish b s)) (p : Point) (b : Byte)
    (h : P s) : P (replyReceived finish p b s) := by
  cases p with
  | reply left =>
    simp only [Machine.replyReceived]
    split
    · exact hfinish b _ (hP.appendReply b h)
    · exact hP.moveTo _ (hP.appendReply b h)
  | _ => exact h

theorem checkStatusAndComplete (b : Byte) (h : P s) : P (checkStatusAndComplete b s) :=
  hP.completeWith _ (hP.setLaststat b h)

theorem frameStep {after : State → State} (hafter : ∀ s, P s → P (after s)) (w : FrameWord) (b : FrameByte) (h : P s) :
    P (frameStep w b after s) := by
  unfold Machine.frameStep
  split
  · cases b with
    | esc => exact hP.moveTo _ (hP.sendByte _ h)
    | code => exact hafter _ (hP.sendByte _ h)
  · exact hP.completeWith _ h
  · exact h

/-- A step of a transaction whose own pieces keep the predicate keeps it. -/
theorem transactionStep {begins : State → State} {afterFrame : FrameWord → State → State}
    {sent : Point → State → State} {received : Point → Byte → State → State} {settled : State → State}
    (hbegins : ∀ s, P s → P (begins s)) (hafterFrame : ∀ w s, P s → P (afterFrame w s))
    (hsent : ∀ p s, P s → P (sent p s)) (hreceived : ∀ p b s, P s → P (received p b s))
    (hsettled : ∀ s, P s → P (settled s)) (h : P s) :
    P (transactionStep begins afterFrame sent received settled s) := by
  unfold Machine.transactionStep
  split
  · exact h
  · exact h
  · split
    · exact hP.frameStep (hafterFrame _) _ _ h
    · split
      · exact hbegins _ h
      · exact hbegins _ h
      · exact hsent _ _ (hP.sendByte _ h)
      · exact hP.completeWith _ h
      · split
        · exact h
        · exact hreceived _ _ _ (hP.takeFromStream _ h)
      · exact hP.completeWith _ h
      · split
        · exact hsettled _ h
        · exact hP.moveTo _ h
      · exact h

/-! The reads (43_serial_protocol R274 to R286, 44_retry). -/

theorem readAttempt (code : Byte) (h : P s) : P (readAttempt code s) := hP.sendCmd code (hP.clearForRead h)

theorem retryAttempt (h : P s) : P (retryAttempt s) := hP.sendCmd _ (hP.setAttempts _ (hP.setLocals _ h))

theorem readBegins (rty : Bool) (code : Byte) (h : P s) : P (readBegins rty code s) := by
  cases rty with
  | false => exact hP.readAttempt code h
  | true => exact hP.retryAttempt (hP.setLocals _ h)

theorem endAttempt (rty : Bool) (e : ErrCode) (h : P s) : P (endAttempt rty e s) := by
  unfold Machine.endAttempt
  split
  · simp only
    split
    · exact hP.completeWith e h
    · exact hP.retryAttempt h
  · exact hP.completeWith e h

theorem startScan (rty : Bool) (h : P s) : P (startScan rty s) := by
  unfold Machine.startScan
  split
  · exact hP.endAttempt rty _ h
  · exact hP.moveTo _ h

theorem readAfterFrame (rty : Bool) (code : Byte) (w : FrameWord) (h : P s) : P (readAfterFrame rty code w s) := by
  unfold Machine.readAfterFrame
  split
  · exact hP.settleWait (fun _ => hP.readAttempt code) h
  · exact hP.startScan rty h

theorem nextTrack (rty : Bool) (t : Track) (carry : Bool) (h : P s) : P (nextTrack rty t carry s) := by
  unfold Machine.nextTrack
  split
  · split
    · exact hP.moveTo _ h
    · exact hP.moveTo _ h
  · exact hP.receiveReply _ (fun _ => hP.endAttempt rty _) h

theorem readFinish (rty : Bool) (b : Byte) (h : P s) : P (readFinish rty b s) := by
  simp only [Machine.readFinish]
  split
  · exact hP.endAttempt rty _ (hP.setLaststat b h)
  · split
    · exact hP.endAttempt rty _ (hP.setLaststat b h)
    · exact hP.endAttempt rty _ (hP.setLaststat b h)

theorem readReceived (rty : Bool) (p : Point) (b : Byte) (h : P s) : P (readReceived rty p b s) := by
  cases p with
  | scan examined =>
    simp only [Machine.readReceived]
    split_ifs
    · exact hP.moveTo _ h
    · exact hP.moveTo _ h
    · exact hP.endAttempt rty _ h
  | headerEsc t | headerNum t =>
    simp only [Machine.readReceived]
    split_ifs
    · exact hP.moveTo _ h
    · exact hP.nextTrack rty t _ (hP.trackError t h)
  | trackData t =>
    simp only [Machine.readReceived]
    split_ifs
    · exact hP.nextTrack rty t _ h
    · exact hP.nextTrack rty t _ (hP.trackError t h)
    · exact hP.moveTo _ (hP.storeTrackByte t b h)
  | reply left => exact hP.replyReceived (fun b _ => hP.readFinish rty b) (.reply left) b h
  | _ => exact h

/-! The transactions without a retry (43_serial_protocol R272, R273, R290 to R300). -/

theorem commtestReceived (p : Point) (b : Byte) (h : P s) : P (commtestReceived p b s) := by
  cases p with
  | commtest =>
    simp only [Machine.commtestReceived]
    split
    · exact hP.completeWith _ h
    · exact hP.moveTo _ h
  | _ => exact h

theorem writeNextTrack (t : Track) (h : P s) : P (writeNextTrack t s) := by
  unfold Machine.writeNextTrack
  split
  · exact hP.moveTo _ h
  · exact hP.moveTo _ h

theorem writeTrackFrom (t : Track) (j : Nat) (h : P s) : P (writeTrackFrom t j s) := by
  unfold Machine.writeTrackFrom
  split
  · exact hP.moveTo _ h
  · exact hP.writeNextTrack t h

theorem writeSent (raw : Bool) (p : Point) (h : P s) : P (writeSent raw p s) := by
  cases p with
  | writeStart | writeEsc _ | writeEnd => exact hP.moveTo _ h
  | writeNum t =>
    simp only [Machine.writeSent]
    split
    · exact hP.moveTo _ h
    · exact hP.writeTrackFrom t 0 h
  | writeLen t => exact hP.writeTrackFrom t 0 h
  | writeData t j => exact hP.writeTrackFrom t (j + 1) h
  | writeFs => exact hP.receiveAndComplete _ h
  | _ => exact h

theorem eraseSent (p : Point) (h : P s) : P (eraseSent p s) := by
  cases p with
  | eraseMask mask => exact hP.receiveAndComplete _ h
  | _ => exact h

theorem modelFinish (b : Byte) (h : P s) : P (modelFinish b s) := by
  unfold Machine.modelFinish
  split_ifs
  all_goals exact hP.completeWith _ h

theorem escapeFinish (b : Byte) (h : P s) : P (escapeFinish b s) := by
  unfold Machine.escapeFinish
  split
  all_goals exact hP.completeWith _ h

theorem xcmdBegins (code : Byte) (h : P s) : P (xcmdBegins code s) := by
  unfold Machine.xcmdBegins
  split
  · exact hP.sendCmd code (hP.clearReply h)
  · exact hP.completeWith _ h

theorem xcmdPayloadFrom (k : Nat) (h : P s) : P (xcmdPayloadFrom k s) := by
  unfold Machine.xcmdPayloadFrom
  split
  · exact hP.moveTo _ h
  · exact hP.receiveAndComplete _ h

theorem xcmdSent (p : Point) (h : P s) : P (xcmdSent p s) := by
  cases p with
  | payload k => exact hP.xcmdPayloadFrom (k + 1) h
  | _ => exact h

theorem xcmdFinish (b : Byte) (h : P s) : P (xcmdFinish b s) := by
  unfold Machine.xcmdFinish
  split
  · exact hP.checkStatusAndComplete b h
  · exact hP.completeWith _ h

theorem clearAndSendCmd (code : Byte) (h : P s) : P (s.clearReply.sendCmd code) := hP.sendCmd code (hP.clearReply h)

/-! A whole step. -/

theorem continueAfterFrame (i : Instr) (w : FrameWord) (h : P s) : P (continueAfterFrame i w s) := by
  cases i with
  | devReset => exact hP.settleWait (fun _ => hP.completeWith _) h
  | devReadiso rty | devReadraw rty => exact hP.readAfterFrame rty _ w h
  | devCommtest | devWriteiso | devWriteraw | devErase => exact hP.moveTo _ h
  | devModel | devFirmware | devLzquery => exact hP.receiveAndComplete _ h
  | devXcmd => exact hP.xcmdPayloadFrom 0 h
  | _ => exact h

/-- The emission of a frame and what its transaction goes on with keep the predicate. -/
theorem emitFrame (code : Byte) (h : P s) : P (emitFrame code s) := by
  unfold Machine.emitFrame
  split
  · split
    · refine hP.frameStep (fun s h => ?_) _ _ h
      unfold resumeTransaction
      split
      · exact hP.continueAfterFrame _ _ h
      · exact h
    · exact h
  · exact h
  · exact h
  · exact h

/-- A step of a transaction that has begun keeps the predicate. -/
theorem exec_transaction {i : Instr} {t : State} {cmd : Word} {p : Point} {l : Locals} (hi : isTransaction i = true)
    (hseq : s.seq = .txn cmd p l) (h : P s) (ht : exec i s = .next t) : P t := by
  cases i with
  | devReset =>
    obtain rfl := Host.Outcome.next.inj ht
    rw [inTransaction_of_txn s p l hseq]
    exact hP.transactionStep (fun _ => hP.sendCmd _) (fun _ _ => hP.settleWait fun _ => hP.completeWith _)
      (fun _ _ h => h) (fun _ _ _ h => h) (fun _ => hP.completeWith _) h
  | devCommtest =>
    obtain rfl := Host.Outcome.next.inj ht
    rw [inTransaction_of_txn s p l hseq]
    exact hP.transactionStep (fun _ => hP.sendCmd _) (fun _ _ => hP.moveTo _) (fun _ _ h => h)
      (fun p b _ => hP.commtestReceived p b) (fun _ h => h) h
  | devReadiso rty | devReadraw rty =>
    obtain rfl := Host.Outcome.next.inj ht
    rw [inTransaction_of_txn s p l hseq]
    exact hP.transactionStep (fun _ => hP.readBegins rty _) (fun w _ => hP.readAfterFrame rty _ w) (fun _ _ h => h)
      (fun p b _ => hP.readReceived rty p b) (fun _ => hP.readAttempt _) h
  | devWriteiso | devWriteraw =>
    obtain rfl := Host.Outcome.next.inj ht
    rw [inTransaction_of_txn s p l hseq]
    exact hP.transactionStep (fun _ => hP.clearAndSendCmd _) (fun _ _ => hP.moveTo _) (fun p _ => hP.writeSent _ p)
      (fun p b _ => hP.replyReceived (fun b _ => hP.checkStatusAndComplete b) p b) (fun _ h => h) h
  | devErase mask =>
    obtain rfl := Host.Outcome.next.inj ht
    rw [inTransaction_of_txn s p l hseq]
    exact hP.transactionStep (fun _ => hP.clearAndSendCmd _) (fun _ _ => hP.moveTo _) (fun p _ => hP.eraseSent p)
      (fun p b _ => hP.replyReceived (fun b _ => hP.checkStatusAndComplete b) p b) (fun _ h => h) h
  | devModel =>
    obtain rfl := Host.Outcome.next.inj ht
    rw [inTransaction_of_txn s p l hseq]
    exact hP.transactionStep (fun _ => hP.clearAndSendCmd _) (fun _ _ => hP.receiveAndComplete _) (fun _ _ h => h)
      (fun p b _ => hP.replyReceived (fun b _ => hP.modelFinish b) p b) (fun _ h => h) h
  | devFirmware | devLzquery =>
    obtain rfl := Host.Outcome.next.inj ht
    rw [inTransaction_of_txn s p l hseq]
    exact hP.transactionStep (fun _ => hP.clearAndSendCmd _) (fun _ _ => hP.receiveAndComplete _) (fun _ _ h => h)
      (fun p b _ => hP.replyReceived (fun b _ => hP.escapeFinish b) p b) (fun _ h => h) h
  | devXcmd code =>
    obtain rfl := Host.Outcome.next.inj ht
    rw [inTransaction_of_txn s p l hseq]
    exact hP.transactionStep (fun _ => hP.xcmdBegins code) (fun _ _ => hP.xcmdPayloadFrom 0) (fun p _ => hP.xcmdSent p)
      (fun p b _ => hP.replyReceived (fun b _ => hP.xcmdFinish b) p b) (fun _ h => h) h
  | _ => exact absurd hi Bool.false_ne_true

end KeptByTransactions

end Sys2Proof.Machine

/-! ### What one step is -/

namespace Sys2Proof.Machine

/-- Everything a step can do: the host's access, the device's byte, the block's move, or nothing. -/
theorem step_cases {s t : State} (h : step s = .next t) :
    (∃ a, s.event = some (.host a) ∧ t = (s.hostAccess a).pop) ∨
    (∃ b, s.event = some (.device b) ∧ t = (s.deviceByte b).pop) ∨
    (s.blockMoves = true ∧ ∃ u, blockStep s = .next u ∧ t = u.pop) ∨
    (s.blockMoves = false ∧ t = s.pop) := by
  unfold step at h
  split at h
  · exact .inl ⟨_, ‹_›, (Host.Outcome.next.inj h).symm⟩
  · exact .inr (.inl ⟨_, ‹_›, (Host.Outcome.next.inj h).symm⟩)
  · split at h
    · exact .inr (.inr (.inl ⟨‹_›, popNext_next h⟩))
    · exact .inr (.inr (.inr ⟨Bool.not_eq_true _ ▸ ‹¬ _›, (Host.Outcome.next.inj h).symm⟩))

/-- The idle block makes no move (70_reset R404). -/
theorem not_idle_of_blockMoves {s : State} (h : s.blockMoves = true) : s.seq ≠ .idle := by
  intro hidle
  unfold State.blockMoves at h
  split at h <;> simp [hidle] at h

/-- Every word the wire encoding lists steps as the emission of its frame. -/
theorem emitFrame_of_exec_frame {w : FrameWord} {j : Instr} (hj : decodeFrame w = .ok j) {s t : State}
    (ht : exec j s = .next t) : t = emitFrame w.second s := by
  rw [exec_of_decodeCode (decodeFrame_ok hj).2] at ht
  exact (Host.Outcome.next.inj ht).symm

/-- What the block executes in a transaction is its command word, or the frame it is sending. -/
theorem fetched_of_txn {s : State} {cmd : Word} {p : Point} {l : Locals} (hseq : s.seq = .txn cmd p l) :
    s.fetched = some (.command cmd) ∨ ∃ w j, decodeFrame w = .ok j ∧ s.fetched = some (.frame w) := by
  unfold State.fetched
  rw [hseq]
  cases p with
  | frame w b =>
    simp only
    split
    · exact .inr ⟨w, _, ‹_›, rfl⟩
    · exact .inl rfl
  | _ => exact .inl rfl

/-- A word that names a transaction decodes to one. -/
theorem decodeCommand_of_namesTransaction {v : Word} (h : namesTransaction v = true) :
    ∃ i, decodeCommand v = .ok i ∧ isTransaction i = true := by
  unfold namesTransaction at h
  split at h
  · exact ⟨_, ‹_›, h⟩
  · cases h

/-- A step of the block in a transaction keeps whatever its pseudocode keeps. -/
theorem KeptByTransactions.blockStep {P : State → Prop} (hP : KeptByTransactions P) {s t : State} {cmd : Word}
    {p : Point} {l : Locals} (hseq : s.seq = .txn cmd p l) (hcmd : namesTransaction cmd = true) (h : P s)
    (ht : blockStep s = .next t) : P t := by
  unfold Machine.blockStep at ht
  rcases fetched_of_txn hseq with hf | ⟨w, j, hj, hf⟩
  · obtain ⟨i, hdec, hi⟩ := decodeCommand_of_namesTransaction hcmd
    simp only [hf, decode, hdec] at ht
    exact hP.exec_transaction hi hseq h ht
  · simp only [hf, decode, hj] at ht
    rw [emitFrame_of_exec_frame hj ht]
    exact hP.emitFrame _ h

/-! ### A compute operation completes -/

section Bodies
variable (s : State) (t : Track) (f : Framing)

/-! No body of a compute operation touches the response buffer. -/

theorem getbitBody_resplen : (getbitBody t s).1.csr.resplen = s.csr.resplen := by
  simp only [getbitBody]; split <;> rfl

theorem setbitBody_resplen : (setbitBody t s).1.csr.resplen = s.csr.resplen := by
  simp only [setbitBody]; split <;> rfl

theorem extractBody_resplen : (extractBody s).1.csr.resplen = s.csr.resplen := by
  simp only [extractBody]
  split_ifs <;> rfl

theorem decodeBody_resplen : (decodeBody f s).1.csr.resplen = s.csr.resplen := by
  unfold decodeBody; split <;> rfl
end Bodies

/-- The operation ended: `t` is a completion of a state that has the response length of `s`. -/
def State.completedTo (s t : State) : Prop :=
  ∃ (u : State) (e : ErrCode), t = u.completeWith e ∧ u.csr.resplen = s.csr.resplen

theorem performIf_completedTo {s : State} (legal : Bool) {body : State → State × ErrCode}
    (hbody : (body s).1.csr.resplen = s.csr.resplen) : s.completedTo (s.performIf legal body) := by
  rcases performIf_cases s legal body with ⟨-, h⟩ | ⟨-, h⟩
  · exact ⟨_, _, h, hbody⟩
  · exact ⟨s, _, h, rfl⟩

theorem performOnTrack_completedTo {s : State} (trk : BitVec 2) {body : Track → State → State × ErrCode}
    (hbody : ∀ t, (body t s).1.csr.resplen = s.csr.resplen) : s.completedTo (s.performOnTrack trk body) := by
  unfold State.performOnTrack
  split
  · exact performIf_completedTo true (hbody _)
  · exact ⟨s, _, rfl, rfl⟩

/-- Outside a transaction there is no frame to emit. -/
theorem emitFrame_of_run {s : State} {cmd : Word} (hseq : s.seq = .run cmd) (code : Byte) : emitFrame code s = s := by
  simp [emitFrame, hseq]

/-- An accepted operation that is no transaction completes in its one step; a frame does nothing there. -/
theorem exec_run_cases {s t : State} {cmd : Word} {i : Instr} (hseq : s.seq = .run cmd)
    (hi : isTransaction i = false) (ht : exec i s = .next t) : t = s ∨ s.completedTo t := by
  cases i with
  | nop | revbyte | revbits | rectify | peakfind =>
    obtain rfl := Host.Outcome.next.inj ht
    exact .inr (performIf_completedTo _ rfl)
  | extract =>
    obtain rfl := Host.Outcome.next.inj ht
    exact .inr (performIf_completedTo _ (extractBody_resplen s))
  | demod =>
    obtain rfl := Host.Outcome.next.inj ht
    exact .inr (performIf_completedTo _ (extractBody_resplen _))
  | decodeAba | decodeIata =>
    obtain rfl := Host.Outcome.next.inj ht
    exact .inr (performIf_completedTo _ (decodeBody_resplen s _))
  | getbit trk =>
    obtain rfl := Host.Outcome.next.inj ht
    exact .inr (performOnTrack_completedTo trk (getbitBody_resplen s))
  | setbit trk =>
    obtain rfl := Host.Outcome.next.inj ht
    exact .inr (performOnTrack_completedTo trk (setbitBody_resplen s))
  | revtrack trk | unpack trk =>
    obtain rfl := Host.Outcome.next.inj ht
    exact .inr (performOnTrack_completedTo trk fun _ => rfl)
  | devReset | devCommtest | devReadiso | devReadraw | devWriteiso | devWriteraw | devErase | devModel | devFirmware
  | devLzquery | devXcmd => cases hi
  | _ =>
    obtain rfl := Host.Outcome.next.inj ht
    exact .inl (emitFrame_of_run hseq _)

/-- A step of the block on an accepted compute operation completes it, or leaves the state as it is. -/
theorem blockStep_of_run {s t : State} {cmd : Word} (hseq : s.seq = .run cmd) (hcmd : namesTransaction cmd = false)
    (ht : blockStep s = .next t) : t = s ∨ s.completedTo t := by
  have hf : s.fetched = some (.command cmd) := by simp [State.fetched, hseq]
  simp only [blockStep, hf, decode] at ht
  cases hdec : decodeCommand cmd with
  | ok i =>
    simp only [hdec] at ht
    exact exec_run_cases hseq (by simpa [namesTransaction, hdec] using hcmd) ht
  | error e =>
    simp only [hdec] at ht
    obtain rfl := Host.Outcome.next.inj ht
    exact .inr ⟨s, _, rfl, rfl⟩

/-! ### Consistent states -/

/-- Consistency looks at the parameters, the registers, the memory and the sequencer alone. -/
theorem State.Consistent.congr {s t : State} (h : s.Consistent) (hparams : t.params = s.params) (hcsr : t.csr = s.csr)
    (hmem : t.mem = s.mem) (hseq : t.seq = s.seq) : t.Consistent := by
  obtain ⟨params, csr, mem, seq, rx, sent, busReply, draws, agenda⟩ := t
  obtain rfl : params = _ := hparams
  obtain rfl : csr = _ := hcsr
  obtain rfl : mem = _ := hmem
  obtain rfl : seq = _ := hseq
  obtain ⟨busy, tx, rx, settling, running, err, resp, accepted⟩ := h
  exact ⟨busy, tx, rx, settling, running, err, resp, accepted⟩

/-- `STATUS` of a block that runs nothing and waits for nothing. -/
structure Status.AtRest (st : Status) : Prop where
  busy : st.busy = false
  waitTx : st.waitTx = false
  waitRx : st.waitRx = false
  settling : st.settling = false
  err_iff : st.err = true ↔ st.errcode ≠ .none

theorem completed_atRest (st : Status) (e : ErrCode) : (st.completed e).AtRest := ⟨rfl, rfl, rfl, rfl, by simp⟩

theorem refused_atRest {st : Status} (h : st.AtRest) : st.refused.AtRest :=
  ⟨h.busy, h.waitTx, h.waitRx, h.settling, by simp [Status.refused]⟩

theorem statusAtReset_atRest : statusAtReset.AtRest := ⟨rfl, rfl, rfl, rfl, by decide⟩

theorem consistent_iff_of_idle {s : State} (hseq : s.seq = .idle) :
    s.Consistent ↔ s.csr.status.AtRest ∧ s.csr.resplen.toNat ≤ 16 := by
  have hw : s.waiting = .nothing := by simp [State.waiting, hseq]
  constructor
  · rintro ⟨busy, tx, rx, settling, -, err, resp, -⟩
    exact ⟨⟨by simpa [hseq] using busy, by simpa [hw] using tx, by simpa [hw] using rx,
      by simpa [hw] using settling, err⟩, resp⟩
  · rintro ⟨⟨busy, tx, rx, settling, err⟩, resp⟩
    exact ⟨by simp [hseq, busy], by simp [hw, tx], by simp [hw, rx], by simp [hw, settling], by simp [busy], err, resp,
      by simp [State.acceptedCommand, hseq]⟩

theorem idle_iff_of_consistent {s : State} (h : s.Consistent) : s.seq = .idle ↔ s.csr.status.busy = false := by
  have := h.busy_iff
  grind

theorem completeWith_consistent {s : State} (e : ErrCode) (h : s.csr.resplen.toNat ≤ 16) :
    (s.completeWith e).Consistent :=
  (consistent_iff_of_idle rfl).2 ⟨completed_atRest _ e, h⟩

theorem completedTo_consistent {s t : State} (h : s.Consistent) (ht : s.completedTo t) : t.Consistent := by
  obtain ⟨u, e, rfl, hresp⟩ := ht
  exact completeWith_consistent e (hresp ▸ h.response_fits)

/-- Another `STATUS` with the same BUSY and progress bits, in which the completion bits still go together. -/
theorem withStatus_consistent {s : State} {st : Status} (h : s.Consistent) (hbusy : st.busy = s.csr.status.busy)
    (htx : st.waitTx = s.csr.status.waitTx) (hrx : st.waitRx = s.csr.status.waitRx)
    (hset : st.settling = s.csr.status.settling)
    (hrun : st.busy = true → st.done = false ∧ st.errcode = .none) (herr : st.err = true ↔ st.errcode ≠ .none) :
    (s.withStatus st).Consistent where
  busy_iff := hbusy ▸ h.busy_iff
  waitTx_eq := htx.trans h.waitTx_eq
  waitRx_eq := hrx.trans h.waitRx_eq
  settling_iff := hset ▸ h.settling_iff
  running := hrun
  err_iff := herr
  response_fits := h.response_fits
  accepted := h.accepted

end Sys2Proof.Machine

namespace Sys2Proof.Machine

/-! ### The host's moves keep a state consistent -/

section HostKeepsConsistency
variable {s : State}

theorem pop_consistent (h : s.Consistent) : s.pop.Consistent := h.congr rfl rfl rfl rfl

theorem reply_consistent (data : Word) (busError : Bool) (h : s.Consistent) : (s.reply data busError).Consistent :=
  h.congr rfl rfl rfl rfl

theorem deviceByte_consistent (b : Byte) (h : s.Consistent) : (s.deviceByte b).Consistent := h.congr rfl rfl rfl rfl

theorem setHaz_consistent (h : s.Consistent) : s.setHaz.Consistent :=
  withStatus_consistent h rfl rfl rfl rfl h.running h.err_iff

theorem setCmdOvr_consistent (h : s.Consistent) : s.setCmdOvr.Consistent :=
  withStatus_consistent h rfl rfl rfl rfl h.running h.err_iff

theorem softReset_consistent (s : State) : s.softReset.Consistent :=
  (consistent_iff_of_idle rfl).2 ⟨statusAtReset_atRest, Nat.zero_le _⟩

/-- An acknowledgement clears ERR and ERRCODE together (10_state R41) and never sets a completion bit. -/
theorem acknowledge_consistent (v : Word) (h : s.Consistent) :
    (s.withStatus (s.csr.status.acknowledge v)).Consistent := by
  refine withStatus_consistent h rfl rfl rfl rfl (fun hbusy => ?_) ?_
  · obtain ⟨hdone, herr⟩ := h.running hbusy
    simp [Status.acknowledge, hdone, herr]
  · have herr := h.err_iff
    cases hv : v.getLsbD 2
    · simpa only [Status.acknowledge, hv, Bool.not_false, Bool.and_true, Bool.false_eq_true, if_false] using herr
    · simp only [Status.acknowledge, hv, Bool.not_true, Bool.and_false, if_true, ne_eq, not_true, Bool.false_eq_true]

/-- While idle, registers other than `STATUS` and `RESPLEN` are free. -/
theorem withCsr_consistent {c : Csr} (hidle : s.seq = .idle) (h : s.Consistent) (hstatus : c.status = s.csr.status)
    (hresp : c.resplen = s.csr.resplen) : (s.withCsr c).Consistent := by
  rw [consistent_iff_of_idle hidle] at h
  refine (consistent_iff_of_idle (s := s.withCsr c) hidle).2 ?_
  rw [withCsr_csr, hstatus, hresp]
  exact h

/-- While idle, memory is free. -/
theorem writeBytes_consistent (a : Nat) (bs : List Byte) (hidle : s.seq = .idle) (h : s.Consistent) :
    (s.writeBytes a bs).Consistent := by
  rw [consistent_iff_of_idle hidle] at h
  exact (consistent_iff_of_idle (s := s.writeBytes a bs) hidle).2 h

/-- A word written to `CMD` is accepted exactly when it is legal, and refused otherwise (60_exceptions R370, R371). -/
theorem issue_consistent (v : Word) (hidle : s.seq = .idle) (h : s.Consistent) : (s.issue v).Consistent := by
  obtain ⟨hrest, hresp⟩ := (consistent_iff_of_idle hidle).1 h
  simp only [State.issue]
  split
  · rename_i hlegal
    cases hname : namesTransaction v
    all_goals
      exact ⟨by simp [Status.accepted], hrest.waitTx, hrest.waitRx,
        by simp [Status.accepted, hrest.settling, State.waiting, Point.waiting], fun _ => ⟨rfl, rfl⟩,
        by simp [Status.accepted], hresp, rfl, hlegal, hname⟩
  · refine (consistent_iff_of_idle ?_).2 ⟨refused_atRest hrest, hresp⟩
    exact hidle

end HostKeepsConsistency

/-- Everything a host write to a register can do while the block is not BUSY. -/
theorem writeCsr_cases (s : State) (offset : Nat) (v : Word) :
    (offset = 0x00 ∧ v.getLsbD 2 = true ∧ s.writeCsr offset v = s.softReset) ∨
    (offset = 0x04 ∧ s.writeCsr offset v = s.issue v) ∨
    (offset = 0x08 ∧ s.writeCsr offset v = s.withStatus (s.csr.status.acknowledge v)) ∨
    ∃ c, s.writeCsr offset v = s.withCsr c ∧ c.status = s.csr.status ∧ c.resplen = s.csr.resplen := by
  unfold State.writeCsr
  split
  case h_1 =>
    split
    · exact .inl ⟨rfl, ‹_›, rfl⟩
    · exact .inr (.inr (.inr ⟨_, rfl, rfl, rfl⟩))
  case h_2 => exact .inr (.inl ⟨rfl, rfl⟩)
  case h_3 => exact .inr (.inr (.inl ⟨rfl, rfl⟩))
  case h_21 => exact .inr (.inr (.inr ⟨s.csr, rfl, rfl, rfl⟩))
  all_goals exact .inr (.inr (.inr ⟨_, rfl, rfl, rfl⟩))

section HostAccess
variable {s : State}

theorem writeCsr_consistent (offset : Nat) (v : Word) (hidle : s.seq = .idle) (h : s.Consistent) :
    (s.writeCsr offset v).Consistent := by
  rcases writeCsr_cases s offset v with ⟨-, -, he⟩ | ⟨-, he⟩ | ⟨-, he⟩ | ⟨c, he, hstatus, hresp⟩
  · exact he ▸ softReset_consistent s
  · exact he ▸ issue_consistent v hidle h
  · exact he ▸ acknowledge_consistent v h
  · exact he ▸ withCsr_consistent hidle h hstatus hresp

theorem writeCell_consistent (w : Window) (a : Nat) (v : Word) (hidle : s.seq = .idle) (h : s.Consistent) :
    (s.writeCell w a v).Consistent := by
  cases w with
  | csr => exact writeCsr_consistent a v hidle h
  | trk | dec | bs | smp | ivl => exact writeBytes_consistent _ _ hidle h

theorem writeWhileBusy_consistent (a : Nat) (v : Word) (h : s.Consistent) : (s.writeWhileBusy a v).Consistent := by
  unfold State.writeWhileBusy
  split_ifs
  · exact acknowledge_consistent v h
  · exact softReset_consistent s
  · exact setCmdOvr_consistent h
  · exact setHaz_consistent h

/-- A host access keeps the state consistent: while BUSY nothing of the running operation can be written (20_memory
R100), and while not BUSY nothing runs. -/
theorem hostAccess_consistent (a : Access) (h : s.Consistent) : (s.hostAccess a).Consistent := by
  cases a with
  | read a n =>
    simp only [State.hostAccess, State.memRead]
    split
    · exact reply_consistent _ _ h
    · split
      · exact (setHaz_consistent h).congr rfl rfl rfl rfl
      · exact reply_consistent _ _ h
  | write a n v =>
    simp only [State.hostAccess, State.memWrite]
    split
    · exact reply_consistent _ _ h
    · split
      · exact reply_consistent _ _ (writeWhileBusy_consistent _ v h)
      · have hidle : s.seq = .idle := (idle_iff_of_consistent h).2 (Bool.not_eq_true _ ▸ ‹¬ _›)
        exact reply_consistent _ _ (writeCell_consistent _ _ v hidle h)

end HostAccess

/-! ### A transaction's pseudocode keeps a state consistent -/

/-- Consistent, and no compute operation accepted: what holds throughout a transaction and at its end. -/
def State.ConsistentInTransaction (s : State) : Prop := s.Consistent ∧ ∀ cmd, s.seq ≠ .run cmd

/-- The legality of a transaction depends on `XTXLEN` alone (60_exceptions R371). -/
theorem commandLegal_congr_of_transaction {v : Word} {s t : State} (hv : namesTransaction v = true)
    (hx : t.csr.xtxlen = s.csr.xtxlen) : commandLegal v t = commandLegal v s := by
  obtain ⟨i, hdec, hi⟩ := decodeCommand_of_namesTransaction hv
  have hop : operandsLegal i t = operandsLegal i s := by
    cases i with
    | devXcmd => simp [operandsLegal, State.payloadLegal, hx]
    | devReset | devCommtest | devReadiso | devReadraw | devWriteiso | devWriteraw | devErase | devModel | devFirmware
    | devLzquery => rfl
    | _ => cases hi
  simp [commandLegal, hdec, hop]

/-- The bits of `STATUS` that consistency speaks of; the others are 0. -/
def Status.control (st : Status) : Status :=
  { st with cmdOvr := false, haz := false, tkerr := 0, laststat := 0, attempts := 0 }

/-- In a transaction, consistency speaks of few registers: another state that agrees with a consistent one in them, and
whose response fits, is consistent. -/
theorem State.ConsistentInTransaction.congr {s t : State} (h : s.ConsistentInTransaction) (hseq : t.seq = s.seq)
    (hstatus : t.csr.status.control = s.csr.status.control) (hcmd : t.csr.cmd = s.csr.cmd)
    (hx : t.csr.xtxlen = s.csr.xtxlen) (hresp : t.csr.resplen.toNat ≤ 16) : t.ConsistentInTransaction := by
  obtain ⟨hcons, hrun⟩ := h
  simp only [Status.control, Status.mk.injEq] at hstatus
  obtain ⟨busy, done, err, -, -, rx, settling, tx, errcode, -⟩ := hstatus
  have hwait : t.waiting = s.waiting := by simp only [State.waiting, hseq]
  refine ⟨⟨?_, ?_, ?_, ?_, ?_, ?_, hresp, ?_⟩, hseq ▸ hrun⟩
  · rw [busy, hseq]; exact hcons.busy_iff
  · rw [tx, hwait]; exact hcons.waitTx_eq
  · rw [rx, hwait]; exact hcons.waitRx_eq
  · rw [settling, hwait]; exact hcons.settling_iff
  · rw [busy, done, errcode]; exact hcons.running
  · rw [err, errcode]; exact hcons.err_iff
  · have haccepted := hcons.accepted
    unfold State.acceptedCommand at haccepted ⊢
    rw [hseq]
    cases hs : s.seq with
    | idle => trivial
    | run cmd => exact absurd hs (hrun cmd)
    | txn cmd p l =>
      rw [hs] at haccepted
      obtain ⟨hc, hlegal, hname⟩ := haccepted
      exact ⟨hcmd.trans hc, (commandLegal_congr_of_transaction hname hx).trans hlegal, hname⟩


theorem moveTo_consistentInTransaction {s : State} (p : Point) (h : s.ConsistentInTransaction) :
    (s.moveTo p).ConsistentInTransaction := by
  cases hseq : s.seq with
  | idle => simpa only [State.moveTo, hseq] using h
  | run cmd => exact absurd hseq (h.2 cmd)
  | txn cmd q l =>
    obtain ⟨busy_iff, -, -, -, running, err_iff, resp, accepted⟩ := h.1
    have hbusy : s.csr.status.busy = true := busy_iff.2 (by simp [hseq])
    simp only [State.acceptedCommand, hseq] at accepted
    rw [moveTo_of_txn s p q l hseq]
    refine ⟨⟨by simpa using hbusy, rfl, rfl, ?_, running, err_iff, resp, accepted⟩, by simp⟩
    cases hp : p.waiting with
    | ticks left => simp [Status.waitingFor, State.waiting, hp]
    | nothing | send | recv => simp [Status.waitingFor, State.waiting, hp]

theorem setLocals_consistentInTransaction {s : State} (l : Locals) (h : s.ConsistentInTransaction) :
    (s.setLocals l).ConsistentInTransaction := by
  cases hseq : s.seq with
  | idle => simpa only [State.setLocals, hseq] using h
  | run cmd => exact absurd hseq (h.2 cmd)
  | txn cmd p m =>
    obtain ⟨busy_iff, tx, rx, settling, running, err_iff, resp, accepted⟩ := h.1
    have hbusy : s.csr.status.busy = true := busy_iff.2 (by simp [hseq])
    simp only [State.waiting, State.acceptedCommand, hseq] at tx rx settling accepted
    simp only [State.setLocals, hseq]
    exact ⟨⟨by simpa using hbusy, tx, rx, settling, running, err_iff, resp, accepted⟩, by simp⟩

theorem appendReply_resplen_le {s : State} (b : Byte) (h : s.csr.resplen.toNat ≤ 16) :
    (s.appendReply b).csr.resplen.toNat ≤ 16 := by
  rcases appendReply_cases s b with ⟨hroom, he⟩ | ⟨-, he⟩
  · rw [he]
    show (s.csr.resplen + 1).toNat ≤ 16
    rw [BitVec.toNat_add]
    simp
    omega
  · rwa [he]

@[simp] theorem setTk_xtxlen (c : Csr) (t : Track) (r : TrackRegs) : (c.setTk t r).xtxlen = c.xtxlen := by
  cases t <;> rfl

/-- No piece of a transaction's pseudocode takes a consistent state to an inconsistent one. -/
theorem consistentInTransaction_kept : KeptByTransactions State.ConsistentInTransaction where
  moveTo p h := moveTo_consistentInTransaction p h
  completeWith e h := ⟨completeWith_consistent e h.1.response_fits, by simp⟩
  sendByte _ h := h.congr rfl rfl rfl rfl h.1.response_fits
  takeFromStream _ h := h.congr rfl rfl rfl rfl h.1.response_fits
  setLocals l h := setLocals_consistentInTransaction l h
  setAttempts _ h := h.congr rfl rfl rfl rfl h.1.response_fits
  setLaststat _ h := h.congr rfl rfl rfl rfl h.1.response_fits
  clearReply h := h.congr rfl rfl rfl rfl (Nat.zero_le _)
  appendReply {s} b h := by
    have hresp := appendReply_resplen_le b h.1.response_fits
    rcases appendReply_cases s b with ⟨-, he⟩ | ⟨-, he⟩
    · rw [he] at hresp ⊢
      exact h.congr rfl rfl rfl rfl hresp
    · rwa [he]
  clearForRead h := h.congr rfl rfl rfl rfl (Nat.zero_le _)
  trackError t h := h.congr rfl (by simp [State.trackError, State.setTkerr, Status.control])
    (by simp [State.trackError, State.setTkerr]) (by simp [State.trackError, State.setTkerr])
    (by simpa [State.trackError, State.setTkerr] using h.1.response_fits)
  storeTrackByte {s} t b h := by
    rcases storeTrackByte_cases s t b with ⟨-, he⟩ | ⟨-, he⟩
    all_goals
      rw [he]
      exact h.congr rfl (by simp [State.writeTrk]) (by simp [State.writeTrk]) (by simp [State.writeTrk])
        (by simpa [State.writeTrk] using h.1.response_fits)

theorem blockStep_consistent {s t : State} (h : s.Consistent) (hmoves : s.blockMoves = true)
    (ht : blockStep s = .next t) : t.Consistent := by
  have haccepted := h.accepted
  unfold State.acceptedCommand at haccepted
  cases hseq : s.seq with
  | idle => exact absurd hseq (not_idle_of_blockMoves hmoves)
  | run cmd =>
    rw [hseq] at haccepted
    obtain ⟨-, -, hname⟩ := haccepted
    rcases blockStep_of_run hseq hname ht with rfl | hdone
    · exact h
    · exact completedTo_consistent h hdone
  | txn cmd p l =>
    rw [hseq] at haccepted
    obtain ⟨-, -, hname⟩ := haccepted
    exact (consistentInTransaction_kept.blockStep hseq hname ⟨h, by simp [hseq]⟩ ht).1

/-- Settles O10, by what each agent's move can do: the host cannot touch what a running operation has accepted, a
compute operation only completes, and a transaction's pseudocode moves and completes with the bits that go with it. -/
theorem sequencerAndStatusStayConsistent : Obligations.SequencerAndStatusStayConsistent := by
  unfold Obligations.SequencerAndStatusStayConsistent
  intro s t h hstep
  rcases step_cases hstep with ⟨a, -, rfl⟩ | ⟨b, -, rfl⟩ | ⟨hmoves, u, hu, rfl⟩ | ⟨-, rfl⟩
  · exact pop_consistent (hostAccess_consistent a h)
  · exact pop_consistent (deviceByte_consistent b h)
  · exact pop_consistent (blockStep_consistent h hmoves hu)
  · exact pop_consistent h

end Sys2Proof.Machine

namespace Sys2Proof.Machine

/-! ### Tracks within their capacity -/

section Capacity
variable {s t : State}

/-- Only the registers of the tracks count. -/
theorem State.tracksWithinCapacity.congr (h : s.tracksWithinCapacity) (htk : ∀ u, t.tk u = s.tk u) :
    t.tracksWithinCapacity := by
  intro u
  rw [htk u]
  exact h u

/-- Other registers of one track keep the bound when they meet it. -/
theorem setTk_withinCapacity {r : TrackRegs} (u : Track) (h : s.tracksWithinCapacity) (hr : r.len.toNat ≤ r.cap.toNat) :
    (s.setTk u r).tracksWithinCapacity := by
  intro v
  by_cases hv : v = u
  · subst hv
    simpa [State.tk] using hr
  · have : (s.setTk u r).tk v = s.tk v := tk_setTk_other _ _ _ _ hv
    rw [this]
    exact h v

/-- The start of a read attempt empties every track, whatever was in it (43_serial_protocol R276). -/
theorem clearForRead_withinCapacity (s : State) : s.clearForRead.tracksWithinCapacity := by
  intro u
  cases u
  all_goals exact Nat.zero_le _

@[simp] theorem moveTo_tk (s : State) (p : Point) (u : Track) : (s.moveTo p).tk u = s.tk u := by
  unfold State.moveTo
  split
  · cases u <;> rfl
  · rfl
  · rfl

/-- A track that takes a byte has room for it (43_serial_protocol R280). -/
theorem storeTrackByte_withinCapacity (u : Track) (b : Byte) (h : s.tracksWithinCapacity) :
    (s.storeTrackByte u b).tracksWithinCapacity := by
  rcases storeTrackByte_cases s u b with ⟨hroom, he⟩ | ⟨-, he⟩
  · rw [he]
    refine setTk_withinCapacity (s := s.writeTrk u _ [b]) u h ?_
    have := (s.tk u).cap.isLt
    have h1 : (1 : Byte).toNat = 1 := rfl
    rw [BitVec.lt_def] at hroom
    simp only [BitVec.toNat_add, h1]
    omega
  · rw [he]
    exact setTk_withinCapacity u h (h u)

/-- No piece of a transaction's pseudocode takes a track beyond its capacity. -/
theorem withinCapacity_kept : KeptByTransactions State.tracksWithinCapacity where
  moveTo p h := h.congr fun u => moveTo_tk _ p u
  completeWith _ h := h.congr fun u => by cases u <;> rfl
  sendByte _ h := h
  takeFromStream _ h := h
  setLocals l h := h.congr fun u => by simp [State.tk]
  setAttempts _ h := h.congr fun u => by cases u <;> rfl
  setLaststat _ h := h.congr fun u => by cases u <;> rfl
  clearReply h := h.congr fun u => by cases u <;> rfl
  appendReply {s} b h := by
    rcases appendReply_cases s b with ⟨-, he⟩ | ⟨-, he⟩
    · exact he ▸ h.congr fun u => by cases u <;> rfl
    · rwa [he]
  clearForRead _ := clearForRead_withinCapacity _
  trackError u h := (setTk_withinCapacity u h (Nat.zero_le _)).congr fun v => by cases v <;> rfl
  storeTrackByte u b h := storeTrackByte_withinCapacity u b h

theorem readAttempt_withinCapacity (code : Byte) (s : State) : (readAttempt code s).tracksWithinCapacity :=
  withinCapacity_kept.sendCmd code (clearForRead_withinCapacity s)

end Capacity

/-- The command code of a read (30_encoding R129). -/
def readCode : Instr → Byte
  | .devReadiso _ => 0x72#8
  | _ => 0x6D#8

/-- A read that has begun is a step of its pseudocode. -/
theorem exec_read {s : State} {i : Instr} {rty : Bool} {cmd : Word} {p : Point} {l : Locals}
    (hi : i ∈ [Instr.devReadiso rty, .devReadraw rty]) (hseq : s.seq = .txn cmd p l) :
    exec i s = .next (transactionStep (readBegins rty (readCode i)) (readAfterFrame rty (readCode i)) noPosition
      (readReceived rty) (readAttempt (readCode i)) s) := by
  simp only [List.mem_cons, List.not_mem_nil, or_false] at hi
  rcases hi with rfl | rfl
  · simp only [exec, execDevReadiso, inTransaction_of_txn s p l hseq, readCode]
  · simp only [exec, execDevReadraw, inTransaction_of_txn s p l hseq, readCode]

/-- Settles O12: the start of an attempt empties the tracks, and nothing behind it stores a byte beyond the capacity. -/
theorem readsKeepTracksWithinCapacity : Obligations.ReadsKeepTracksWithinCapacity := by
  unfold Obligations.ReadsKeepTracksWithinCapacity
  intro rty i hi
  have hread : isTransaction i = true := by
    simp only [List.mem_cons, List.not_mem_nil, or_false] at hi
    rcases hi with rfl | rfl
    all_goals rfl
  refine ⟨fun s t cmd p l hseq _ h ht => withinCapacity_kept.exec_transaction hread hseq h ht, ?_, ?_⟩
  · rintro s t cmd l hseq rfl he ht
    rw [exec_read hi hseq, transactionStep_start hseq (.inr he)] at ht
    obtain rfl := Host.Outcome.next.inj ht
    exact readAttempt_withinCapacity _ s
  · intro s t cmd l hseq he ht
    rw [exec_read hi hseq, transactionStep_tick hseq he] at ht
    obtain rfl := Host.Outcome.next.inj ht
    exact readAttempt_withinCapacity _ s

/-! ### Reset -/

/-- Settles O11: nothing runs, nothing is written and every track is empty after reset. -/
theorem resetStateMeetsTheInvariants : Obligations.ResetStateMeetsTheInvariants := by
  unfold Obligations.ResetStateMeetsTheInvariants
  refine ⟨(consistent_iff_of_idle rfl).2 ⟨statusAtReset_atRest, Nat.zero_le _⟩, reset_mem_wf, fun t => ?_⟩
  cases t
  all_goals exact Nat.zero_le _

/-- Every register but the three capacities reads 0 after reset (70_reset R401). -/
theorem reset_readCsr_eq_zero {offset : Nat} (h : offset ∉ [0x60, 0x64, 0x68]) : State.reset.readCsr offset = 0#32 := by
  unfold State.readCsr
  split
  case h_23 | h_24 | h_25 => exact absurd (by decide) h
  all_goals rfl

/-- Settles O13: only the three capacities are not 0, and no memory byte is written. -/
theorem powerOnResetValues : Obligations.PowerOnResetValues :=
  ⟨by decide, fun _ => reset_readCsr_eq_zero, rfl, rfl, fun _ => rfl⟩

/-! ### Host writes to the registers -/

/-- An aligned word access below 0x1000 is an access of a register (20_memory R92). -/
theorem accessedWindow_csr (p : Params) {offset : Nat} (hlt : offset < 0x1000) (halign : offset % 4 = 0) :
    accessedWindow p (BitVec.ofNat 32 offset) .word = some .csr := by
  have hoff : (BitVec.ofNat 32 offset).toNat = offset := by
    rw [BitVec.toNat_ofNat]
    omega
  have hle : offset ≤ 0xFFF := by omega
  simp [accessedWindow, windowAt, hoff, hle, Window.width, Width.bytes, halign]

section RegisterWrites
variable {s : State} {offset : Nat} {v : Word}

/-- A host write to a register while BUSY is one of the exemptions or is dropped; otherwise it writes the register. -/
theorem hostAccess_write_csr (hlt : offset < 0x1000) (halign : offset % 4 = 0) :
    s.hostAccess (.write (BitVec.ofNat 32 offset) .word v) =
      (if s.csr.status.busy then s.writeWhileBusy offset v else s.writeCsr offset v).reply 0 false := by
  have hoff : (BitVec.ofNat 32 offset).toNat = offset := by
    rw [BitVec.toNat_ofNat]
    omega
  simp only [State.hostAccess, State.memWrite, accessedWindow_csr s.params hlt halign, hoff]
  split <;> rfl

theorem hostAccess_read_csr (hlt : offset < 0x1000) (halign : offset % 4 = 0) :
    s.hostAccess (.read (BitVec.ofNat 32 offset) .word) = s.reply (s.readCsr offset) false := by
  have hoff : (BitVec.ofNat 32 offset).toNat = offset := by
    rw [BitVec.toNat_ofNat]
    omega
  simp [State.hostAccess, State.memRead, accessedWindow_csr s.params hlt halign, hoff, State.readCell]

/-- BUSY or not, a write of `CTRL` with bit 2 set is the soft reset (10_state R35). -/
theorem hostAccess_softReset (hv : v.getLsbD 2 = true) :
    s.hostAccess (.write 0#32 .word v) = s.softReset.reply 0 false := by
  rw [show (0#32) = BitVec.ofNat 32 0 from rfl, hostAccess_write_csr (by omega) rfl]
  simp [State.writeWhileBusy, State.writeCsr, hv]

/-- BUSY or not, a write of `STATUS` acknowledges (10_state R38). -/
theorem hostAccess_acknowledge :
    s.hostAccess (.write 0x08#32 .word v) = (s.withStatus (s.csr.status.acknowledge v)).reply 0 false := by
  rw [show (0x08#32) = BitVec.ofNat 32 8 from rfl, hostAccess_write_csr (by omega) rfl]
  simp [State.writeWhileBusy, State.writeCsr]
end RegisterWrites

/-- SRST has no storage (10_state R35). -/
theorem readCsr_ctrl_srst (s : State) : (s.readCsr 0x00).getLsbD 2 = false := by
  simp only [State.readCsr, Ctrl.toWord, BitVec.getLsbD_append, BitVec.getLsbD_ofBool, BitVec.getLsbD_zero]
  simp

/-- Settles O14: BUSY or not, the write is the soft reset, and `CTRL` has no bit for SRST. -/
theorem softResetWorksAtAnyTime : Obligations.SoftResetWorksAtAnyTime := by
  unfold Obligations.SoftResetWorksAtAnyTime
  refine ⟨fun s v rest hv hagenda => ?_, readCsr_ctrl_srst⟩
  refine ⟨_, step_of_host hagenda, ?_⟩
  rw [hostAccess_softReset hv]
  exact ⟨rfl, rfl, rfl, fun _ => rfl, rfl, rfl, rfl, rfl, by simp [hagenda], rfl⟩

/-- Settles O21: a bit cleared where the word has a 1 is the bit and not the word's. -/
theorem statusWriteAcknowledges : Obligations.StatusWriteAcknowledges := by
  unfold Obligations.StatusWriteAcknowledges
  intro s v
  have hclear : ∀ b w : Bool, (b && !w) = if w then false else b := by decide
  rw [hostAccess_acknowledge]
  simp only [Status.acknowledge, hclear]
  rfl

/-! ### What the block executes -/

/-- When the block moves, the step is the block's. -/
theorem step_of_blockMoves {s : State} (h : s.blockMoves = true) : step s = popNext (blockStep s) := by
  unfold step
  split
  · rename_i a he
    simp [State.blockMoves, he] at h
  · rename_i b he
    simp [State.blockMoves, he] at h
  · rw [if_pos h]

/-- The block's step is the fetched instruction's (10_state R60). -/
theorem step_of_fetched {s : State} {w : CodeWord} {i : Instr} (hmoves : s.blockMoves = true)
    (hfetched : s.fetched = some w) (hdec : decode w = .ok i) : step s = popNext (exec i s) := by
  rw [step_of_blockMoves hmoves]
  simp only [blockStep, hfetched, hdec]

/-- A compute operation moves at its own move and when nobody else does (20_memory R103). -/
theorem blockMoves_of_run {s : State} {cmd : Word} (hseq : s.seq = .run cmd)
    (hhead : s.agenda.head? = none ∨ s.agenda.head? = some .block) : s.blockMoves = true := by
  rcases hhead with hhead | hhead
  all_goals simp [State.blockMoves, State.event, hhead, hseq]

/-- A transaction moves at every move but the host's and the device's (60_exceptions R381 to R383). -/
theorem blockMoves_of_txn {s : State} {cmd : Word} {p : Point} {l : Locals} (hseq : s.seq = .txn cmd p l)
    (hhost : ∀ a, s.agenda.head? ≠ some (.host a)) (hdevice : ∀ b, s.agenda.head? ≠ some (.device b)) :
    s.blockMoves = true := by
  unfold State.blockMoves
  split
  · exact absurd ‹s.event = _› (hhost _)
  · exact absurd ‹s.event = _› (hdevice _)
  all_goals simp [hseq]

/-- In the `SendCmd` of a listed frame the block executes the frame. -/
theorem fetched_frame {s : State} {cmd : Word} {w : FrameWord} {b : FrameByte} {l : Locals} {i : Instr}
    (hseq : s.seq = .txn cmd (.frame w b) l) (hw : decodeFrame w = .ok i) : s.fetched = some (.frame w) := by
  simp [State.fetched, hseq, hw]

/-- Everywhere else in a transaction it executes the command word. -/
theorem fetched_command {s : State} {cmd : Word} {p : Point} {l : Locals} (hseq : s.seq = .txn cmd p l)
    (hp : ∀ (w : FrameWord) (b : FrameByte) (i : Instr), p = .frame w b → decodeFrame w ≠ .ok i) :
    s.fetched = some (.command cmd) := by
  cases p with
  | frame w b =>
    cases hw : decodeFrame w with
    | ok i => exact absurd hw (hp w b i rfl)
    | error e => simp [State.fetched, hseq, hw]
  | _ => simp [State.fetched, hseq]

/-- Settles O6: what is fetched, when the block moves, and that it then runs what is fetched. -/
theorem stepRunsTheFetchedInstruction : Obligations.StepRunsTheFetchedInstruction := by
  unfold Obligations.StepRunsTheFetchedInstruction
  refine ⟨fun s w i hmoves hfetched hdec => ?_, fun s cmd hseq hhead => ?_, fun s cmd p l hseq hhost hdevice => ?_⟩
  · rw [step_of_fetched hmoves hfetched hdec]
    cases exec i s
    all_goals rfl
  · exact ⟨blockMoves_of_run hseq hhead, by simp [State.fetched, hseq]⟩
  · refine ⟨blockMoves_of_txn hseq hhost hdevice, ?_, fetched_command hseq⟩
    rintro w b i rfl hw
    exact fetched_frame hseq hw

end Sys2Proof.Machine

/-! ### The address map -/

namespace Sys2Proof.Machine

/-- What 00_scope R7 and 20_memory R92 give to keep the windows apart. -/
theorem Params.window_bounds {p : Params} (h : p.valid = true) :
    p.trackMax = 255 ∧ p.decMax ≤ 0x100000 ∧ p.bsMax ≤ 0xE00000 ∧ p.nsMax ≤ 0x800000 := by
  simp only [Params.valid, Bool.and_eq_true, decide_eq_true_eq, beq_iff_eq] at h
  tauto

/-- The windows do not overlap: an address inside a row of the address map is the row's. -/
theorem windowAt_of_mem {p : Params} {r : MapWindow} {a : Nat} (hp : p.valid = true) (hr : r ∈ addressMap p)
    (hlo : r.base ≤ a) (hhi : a < r.base + r.cells * r.width) : windowAt p a = some r.window := by
  obtain ⟨htrk, hdec, hbs, hsmp⟩ := Params.window_bounds hp
  simp only [addressMap, List.mem_cons, List.not_mem_nil, or_false] at hr
  rcases hr with rfl | rfl | rfl | rfl | rfl | rfl | rfl | rfl
  all_goals
    simp only at hlo hhi
    unfold windowAt
    repeat rw [if_neg (by omega)]
    rw [if_pos (by omega)]

/-- A row's width is its window's. -/
theorem width_of_mem {p : Params} {r : MapWindow} {n : Width} (hr : r ∈ addressMap p) (hn : n.bytes = r.width) :
    r.window.width = n := by
  simp only [addressMap, List.mem_cons, List.not_mem_nil, or_false] at hr
  rcases hr with rfl | rfl | rfl | rfl | rfl | rfl | rfl | rfl
  all_goals
    cases n
    all_goals simp_all [Width.bytes, Window.width]

/-- An access that a row of the address map takes reaches the row's window (20_memory R92, R93). -/
theorem accessedWindow_of_takes {p : Params} {r : MapWindow} {a : Word} {n : Width} (hp : p.valid = true)
    (hr : r ∈ addressMap p) (ht : r.takes a.toNat n) : accessedWindow p a n = some r.window := by
  obtain ⟨hlo, hhi, hn, halign⟩ := ht
  simp [accessedWindow, windowAt_of_mem hp hr hlo hhi, width_of_mem hr hn, hn, halign]

/-! ### Writes while BUSY -/

/-- The exemptions of 20_memory R100, by the address itself. -/
theorem writeWhileBusy_toNat (s : State) (a v : Word) :
    s.writeWhileBusy a.toNat v =
      if a = 0x08#32 then s.withStatus (s.csr.status.acknowledge v)
      else if a = 0x00#32 ∧ v.getLsbD 2 = true then s.softReset
      else if a = 0x04#32 then s.setCmdOvr
      else s.setHaz := by
  simp only [State.writeWhileBusy, ← BitVec.toNat_inj, BitVec.toNat_ofNat]

/-- Settles O19. -/
theorem writesWhileBusy : Obligations.WritesWhileBusy := by
  unfold Obligations.WritesWhileBusy
  intro s r a n v hp hbusy hr ht
  calc s.hostAccess (.write a n v)
      = (s.writeWhileBusy a.toNat v).reply 0 false := by
        simp [State.hostAccess, State.memWrite, accessedWindow_of_takes hp hr ht, hbusy]
    _ = _ := by
        rw [writeWhileBusy_toNat]
        rfl

/-! ### Compute operations and STATUS -/

section ReadsWithStatus
variable (s : State) (st : Status)

/-! What the bodies read does not depend on `STATUS`. -/

@[simp] theorem withStatus_trackLen (t : Track) : (s.withStatus st).trackLen t = s.trackLen t := by cases t <;> rfl
@[simp] theorem withStatus_trk (t : Track) (j : Nat) : (s.withStatus st).trk t j = s.trk t j := rfl
@[simp] theorem withStatus_bitstring : (s.withStatus st).bitstring = s.bitstring := rfl
@[simp] theorem withStatus_intervals : (s.withStatus st).intervals = s.intervals := rfl
@[simp] theorem withStatus_trackBytes (t : Track) : (s.withStatus st).trackBytes t = s.trackBytes t := by
  simp only [State.trackBytes, withStatus_trackLen]
  rfl
end ReadsWithStatus

/-- Another `STATUS` before the body is that `STATUS` after it, and makes no other difference. -/
def IgnoresStatus (body : State → State × ErrCode) : Prop :=
  ∀ (s : State) (st : Status), body (s.withStatus st) = ((body s).1.withStatus st, (body s).2)

theorem getbitBody_ignoresStatus (t : Track) : IgnoresStatus (getbitBody t) := by
  intro s st
  simp only [getbitBody, withStatus_csr, withStatus_trackLen, withStatus_trk]
  split
  all_goals rfl

theorem setbitBody_ignoresStatus (t : Track) : IgnoresStatus (setbitBody t) := by
  intro s st
  simp only [setbitBody, withStatus_csr, withStatus_trackLen, withStatus_trk]
  split
  all_goals rfl

theorem revtrackBody_ignoresStatus (t : Track) : IgnoresStatus (revtrackBody t) := by
  intro s st
  simp only [revtrackBody, withStatus_trackBytes]
  rfl

theorem unpackBody_ignoresStatus (t : Track) : IgnoresStatus (unpackBody t) := by
  intro s st
  simp only [unpackBody, withStatus_trackBytes, withStatus_trackLen]
  rfl

theorem extractBody_ignoresStatus : IgnoresStatus extractBody := by
  intro s st
  by_cases h0 : s.intervals.length < 2
  · simp only [extractBody, withStatus_intervals, h0, if_true]
    rfl
  · by_cases h2 : s.intervals.length = 2
    · simp only [extractBody, withStatus_intervals, h2, if_true]
      rfl
    · simp only [extractBody, withStatus_intervals, h0, h2, if_false]
      rfl

theorem decodeBody_ignoresStatus (f : Framing) : IgnoresStatus (decodeBody f) := by
  intro s st
  simp only [decodeBody, withStatus_bitstring]
  split
  all_goals rfl

/-- DEMOD is EXTRACT behind two bodies that do not touch `STATUS` (41_demodulator R218). -/
theorem demodBody_ignoresStatus : IgnoresStatus fun s => extractBody (peakfindBody (rectifyBody s)) :=
  fun s st => extractBody_ignoresStatus (peakfindBody (rectifyBody s)) st

theorem completed_eq_statusOnCompletion (st : Status) (e : ErrCode) : st.completed e = statusOnCompletion st e := by
  cases e <;> rfl

/-- Completion writes its own bits of `STATUS` over any others (60_exceptions R374). -/
theorem completeWith_withStatus (s : State) (st : Status) (e : ErrCode) :
    (s.withStatus st).completeWith e =
      (s.completeWith e).withStatus (statusOnCompletion st (s.completeWith e).csr.status.errcode) := by
  rw [← completed_eq_statusOnCompletion]
  rfl

/-- The operation, started with another `STATUS`, ends with another `STATUS` and nothing else. -/
def StatusIndependent (op : State → State) : Prop :=
  ∀ (s : State) (st : Status),
    op (s.withStatus st) = (op s).withStatus (statusOnCompletion st (op s).csr.status.errcode)

theorem performIf_statusIndependent {legal : State → Bool} {body : State → State × ErrCode}
    (hlegal : ∀ (s : State) st, legal (s.withStatus st) = legal s) (hbody : IgnoresStatus body) :
    StatusIndependent fun s => s.performIf (legal s) body := by
  intro s st
  simp only [State.performIf, hlegal, hbody s st]
  split
  · exact completeWith_withStatus _ st _
  · exact completeWith_withStatus s st _

theorem performOnTrack_statusIndependent (trk : BitVec 2) {body : Track → State → State × ErrCode}
    (hbody : ∀ t, IgnoresStatus (body t)) : StatusIndependent fun s => s.performOnTrack trk body := by
  intro s st
  simp only [State.performOnTrack]
  split
  · exact performIf_statusIndependent (legal := fun _ => true) (fun _ _ => rfl) (hbody _) s st
  · exact completeWith_withStatus s st _

/-- Each compute operation is an operation on states that does not depend on `STATUS`. -/
theorem exec_compute_statusIndependent {i : Instr}
    (hi : i ∈ [.nop, .revbyte, .revbits, .rectify, .peakfind, .extract, .demod, .decodeAba, .decodeIata] ∨
      ∃ t : Track, i ∈ [.getbit t.field, .setbit t.field, .revtrack t.field, .unpack t.field]) :
    ∃ op, StatusIndependent op ∧ ∀ s, exec i s = .next (op s) := by
  cases i with
  | nop | revbyte =>
    exact ⟨_, performIf_statusIndependent (legal := fun _ => true) (fun _ _ => rfl) fun _ _ => rfl, fun _ => rfl⟩
  | revbits =>
    exact ⟨_, performIf_statusIndependent (legal := State.bitstringLegal) (fun _ _ => rfl) fun _ _ => rfl, fun _ => rfl⟩
  | rectify | peakfind =>
    exact ⟨_, performIf_statusIndependent (legal := State.samplesLegal) (fun _ _ => rfl) fun _ _ => rfl, fun _ => rfl⟩
  | extract =>
    exact ⟨_, performIf_statusIndependent (legal := State.intervalsLegal) (fun _ _ => rfl) extractBody_ignoresStatus,
      fun _ => rfl⟩
  | demod =>
    exact ⟨_, performIf_statusIndependent (legal := State.samplesLegal) (fun _ _ => rfl) demodBody_ignoresStatus,
      fun _ => rfl⟩
  | decodeAba | decodeIata =>
    exact ⟨_, performIf_statusIndependent (legal := State.bitstringLegal) (fun _ _ => rfl) (decodeBody_ignoresStatus _),
      fun _ => rfl⟩
  | getbit trk => exact ⟨_, performOnTrack_statusIndependent trk getbitBody_ignoresStatus, fun _ => rfl⟩
  | setbit trk => exact ⟨_, performOnTrack_statusIndependent trk setbitBody_ignoresStatus, fun _ => rfl⟩
  | revtrack trk => exact ⟨_, performOnTrack_statusIndependent trk revtrackBody_ignoresStatus, fun _ => rfl⟩
  | unpack trk => exact ⟨_, performOnTrack_statusIndependent trk unpackBody_ignoresStatus, fun _ => rfl⟩
  | _ => simp at hi

/-- Settles O42. -/
theorem computeOperationsIgnoreStatus : Obligations.ComputeOperationsIgnoreStatus := by
  unfold Obligations.ComputeOperationsIgnoreStatus
  intro i s st hi
  obtain ⟨op, hop, hexec⟩ := exec_compute_statusIndependent hi
  exact ⟨op s, hexec s, by rw [hexec, hop]⟩

end Sys2Proof.Machine

/-! ### The register file -/

namespace Sys2Proof.Machine

/-- Concatenation as a number: the left part counts above the right one. -/
theorem toNat_append_eq_add {m n : Nat} (x : BitVec m) (y : BitVec n) :
    (x ++ y).toNat = x.toNat * 2 ^ n + y.toNat := by
  rw [BitVec.toNat_append, ← Nat.shiftLeft_add_eq_or_of_lt y.isLt, Nat.shiftLeft_eq]

@[simp] theorem RegisterRow.value_nil (offset : Nat) : RegisterRow.value ⟨offset, []⟩ = 0 := rfl

/-- A field counts at its place. Proved by rewriting: as a lemma by `rfl`, `simp` would leave the kernel to compare sums
of large powers by unfolding them. -/
@[simp] theorem RegisterRow.value_cons (offset lo x : Nat) (fields : List (Nat × Nat)) :
    RegisterRow.value ⟨offset, (lo, x) :: fields⟩ = x * 2 ^ lo + RegisterRow.value ⟨offset, fields⟩ := by
  rw [RegisterRow.value, RegisterRow.value, List.map_cons, List.sum_cons]

theorem errorNumber_eq_toNat (e : ErrCode) : e.bits.toNat = errorNumber e := by cases e <;> rfl

section Values
variable (s : State) (offset : Nat)

theorem ctrl_toNat (c : Ctrl) :
    c.toWord.toNat = RegisterRow.value ⟨offset, [(0, c.vcDis.toNat), (1, c.irqEn.toNat), (8, c.maxAtt.toNat)]⟩ := by
  simp only [Ctrl.toWord, toNat_append_eq_add, BitVec.toNat_ofBool, BitVec.toNat_ofNat, RegisterRow.value_cons,
    RegisterRow.value_nil]
  omega

theorem status_toNat (st : Status) : st.toWord.toNat = RegisterRow.value ⟨offset, statusFields st⟩ := by
  simp only [Status.toWord, toNat_append_eq_add, BitVec.toNat_ofBool, BitVec.toNat_ofNat, statusFields,
    RegisterRow.value_cons, RegisterRow.value_nil, errorNumber_eq_toNat]
  omega

theorem revb_toNat (byteIn byteOut : Byte) :
    (0#16 ++ byteOut ++ byteIn : Word).toNat = RegisterRow.value ⟨offset, [(0, byteIn.toNat), (8, byteOut.toNat)]⟩ := by
  simp only [toNat_append_eq_add, BitVec.toNat_ofNat, RegisterRow.value_cons, RegisterRow.value_nil]
  omega

theorem xctl_toNat (xtxlen xrxlen : BitVec 4) (xchk : Bool) :
    (0#23 ++ BitVec.ofBool xchk ++ xrxlen ++ xtxlen : Word).toNat =
      RegisterRow.value ⟨offset, [(0, xtxlen.toNat), (4, xrxlen.toNat), (8, xchk.toNat)]⟩ := by
  simp only [toNat_append_eq_add, BitVec.toNat_ofNat, BitVec.toNat_ofBool, RegisterRow.value_cons,
    RegisterRow.value_nil]
  omega

theorem respWord_toNat {i : Nat} (hi : i < 4) :
    (s.respWord i).toNat = RegisterRow.value ⟨offset, responseFields s.csr i⟩ := by
  have hfields : responseFields s.csr i =
      [(0, (s.respByte (4 * i)).toNat), (8, (s.respByte (4 * i + 1)).toNat), (16, (s.respByte (4 * i + 2)).toNat),
        (24, (s.respByte (4 * i + 3)).toNat)] := by
    match i with
    | 0 | 1 | 2 | 3 => rfl
    | n + 4 => omega
  simp only [State.respWord, wordOfBytes, toNat_append_eq_add, hfields, RegisterRow.value_cons, RegisterRow.value_nil]
  omega

/-- A register with one field from bit 0 up. -/
theorem setWidth_toNat_eq_value {w : Nat} (x : BitVec w) (hw : w ≤ 32) :
    (x.setWidth 32).toNat = RegisterRow.value ⟨offset, [(0, x.toNat)]⟩ := by
  rw [BitVec.toNat_setWidth_of_le hw]
  simp

theorem word_toNat_eq_value (x : Word) : x.toNat = RegisterRow.value ⟨offset, [(0, x.toNat)]⟩ := by simp

theorem bit_toNat_eq_value (b : Bool) :
    ((BitVec.ofBool b).setWidth 32).toNat = RegisterRow.value ⟨offset, [(0, b.toNat)]⟩ := by
  rw [setWidth_toNat_eq_value offset _ (by omega), BitVec.toNat_ofBool]

/-- Every register of the map reads as its fields (10_state R30 to R59). -/
theorem readCsr_toNat : ∀ r ∈ registerMap s.csr, (s.readCsr r.offset).toNat = r.value := by
  simp only [registerMap, List.cons_append, List.nil_append, List.forall_mem_cons]
  exact ⟨ctrl_toNat _ _, word_toNat_eq_value _ _, status_toNat _ _,
    setWidth_toNat_eq_value _ _ (by omega), setWidth_toNat_eq_value _ _ (by omega),
    word_toNat_eq_value _ _, word_toNat_eq_value _ _, word_toNat_eq_value _ _, word_toNat_eq_value _ _,
    word_toNat_eq_value _ _, word_toNat_eq_value _ _, word_toNat_eq_value _ _,
    bit_toNat_eq_value _ _, revb_toNat _ _ _, xctl_toNat _ _ _ _, word_toNat_eq_value _ _, word_toNat_eq_value _ _,
    setWidth_toNat_eq_value _ _ (by omega),
    respWord_toNat s _ (by omega), respWord_toNat s _ (by omega), respWord_toNat s _ (by omega),
    respWord_toNat s _ (by omega),
    setWidth_toNat_eq_value _ _ (by omega), setWidth_toNat_eq_value _ _ (by omega),
    setWidth_toNat_eq_value _ _ (by omega), setWidth_toNat_eq_value _ _ (by omega),
    setWidth_toNat_eq_value _ _ (by omega), setWidth_toNat_eq_value _ _ (by omega),
    setWidth_toNat_eq_value _ _ (by omega), setWidth_toNat_eq_value _ _ (by omega),
    setWidth_toNat_eq_value _ _ (by omega), by simp⟩
end Values

end Sys2Proof.Machine

namespace Sys2Proof.Machine

/-- The offsets of the register map, in its order. -/
theorem registerMap_offsets (c : Csr) : (registerMap c).map RegisterRow.offset =
    [0x00, 0x04, 0x08, 0x0C, 0x10, 0x14, 0x18, 0x1C, 0x20, 0x24, 0x28, 0x2C, 0x30, 0x34, 0x38, 0x3C, 0x40, 0x44,
      0x48, 0x4C, 0x50, 0x54, 0x60, 0x64, 0x68, 0x70, 0x74, 0x78, 0x80, 0x84, 0x88] := rfl

/-- Every other offset is reserved and reads 0 (10_state R31). -/
theorem readCsr_reserved {s : State} {c : Csr} {offset : Nat} (h : offset ∉ (registerMap c).map RegisterRow.offset) :
    s.readCsr offset = 0#32 := by
  rw [registerMap_offsets] at h
  unfold State.readCsr
  split
  case h_32 => rfl
  all_goals exact absurd (by decide) h

/-! ### What a host write leaves in each register -/

/-- What is written where the mask has a 1, and what was there where it has a 0. -/
theorem eq_merge_of_getLsbD {x y v mask : Word}
    (h : ∀ i < 32, x.getLsbD i = if mask.getLsbD i then v.getLsbD i else y.getLsbD i) :
    x = (v &&& mask) ||| (y &&& ~~~mask) := by
  apply BitVec.eq_of_getLsbD_eq
  intro i hi
  rw [h i hi, BitVec.getLsbD_or, BitVec.getLsbD_and, BitVec.getLsbD_and, BitVec.getLsbD_not]
  cases mask.getLsbD i
  all_goals simp [hi]

section Merges
variable (v : Word)

/-- The bits of a mask of the `k` low bits. -/
theorem getLsbD_lowMask (k i : Nat) (hi : i < 32) : (BitVec.ofNat 32 (2 ^ k - 1)).getLsbD i = decide (i < k) := by
  rw [BitVec.getLsbD_ofNat, Nat.testBit_two_pow_sub_one]
  simp [hi]

/-- A whole register takes the word. -/
theorem word_merge (y : Word) : v = (v &&& 0xFFFFFFFF#32) ||| (y &&& ~~~0xFFFFFFFF#32) := by
  refine eq_merge_of_getLsbD fun i hi => ?_
  rw [show (0xFFFFFFFF#32) = BitVec.ofNat 32 (2 ^ 32 - 1) from rfl, getLsbD_lowMask 32 i hi]
  simp [hi]

/-- A field from bit 0 up takes the low bits of the word. -/
theorem setWidth_merge {k : Nat} (y : BitVec k) :
    (v.setWidth k).setWidth 32 =
      (v &&& BitVec.ofNat 32 (2 ^ k - 1)) ||| (y.setWidth 32 &&& ~~~BitVec.ofNat 32 (2 ^ k - 1)) := by
  refine eq_merge_of_getLsbD fun i hi => ?_
  rw [getLsbD_lowMask k i hi]
  simp only [BitVec.getLsbD_setWidth, hi, decide_true, Bool.true_and]
  by_cases hk : i < k
  · simp [hk]
  · simp [hk, BitVec.getLsbD_of_ge y i (by omega)]

/-- `BITVAL` takes bit 0. -/
theorem bit_merge (y : Bool) :
    (BitVec.ofBool (v.getLsbD 0)).setWidth 32 =
      (v &&& 0x00000001#32) ||| ((BitVec.ofBool y).setWidth 32 &&& ~~~0x00000001#32) := by
  have h := setWidth_merge v (BitVec.ofBool y)
  rwa [BitVec.setWidth_one] at h

/-- `CTRL` takes VC_DIS, IRQ_EN and MAX_ATT (10_state R32). -/
theorem ctrl_merge (c : Ctrl) :
    Ctrl.toWord { vcDis := v.getLsbD 0, irqEn := v.getLsbD 1, maxAtt := v.extractLsb' 8 8 } =
      (v &&& 0x0000FF03#32) ||| (c.toWord &&& ~~~0x0000FF03#32) := by
  have hmask : ∀ i < 32, (0x0000FF03#32).getLsbD i = decide (i < 2 ∨ 8 ≤ i ∧ i < 16) := by decide
  refine eq_merge_of_getLsbD fun i hi => ?_
  rw [hmask i hi]
  simp only [Ctrl.toWord, BitVec.getLsbD_append, BitVec.getLsbD_ofBool, BitVec.getLsbD_extractLsb', BitVec.getLsbD_zero]
  grind

/-- `REVB` takes BYTE_IN and keeps BYTE_OUT (10_state R57). -/
theorem revb_merge (byteIn byteOut : Byte) :
    (0#16 ++ byteOut ++ v.setWidth 8 : Word) =
      (v &&& 0x000000FF#32) ||| ((0#16 ++ byteOut ++ byteIn : Word) &&& ~~~0x000000FF#32) := by
  refine eq_merge_of_getLsbD fun i hi => ?_
  rw [show (0x000000FF#32) = BitVec.ofNat 32 (2 ^ 8 - 1) from rfl, getLsbD_lowMask 8 i hi]
  simp only [BitVec.getLsbD_append, BitVec.getLsbD_setWidth, BitVec.getLsbD_zero]
  grind

/-- `XCTL` takes XTXLEN, XRXLEN and XCHK (10_state R58). -/
theorem xctl_merge (xtxlen xrxlen : BitVec 4) (xchk : Bool) :
    (0#23 ++ BitVec.ofBool (v.getLsbD 8) ++ v.extractLsb' 4 4 ++ v.extractLsb' 0 4 : Word) =
      (v &&& 0x000001FF#32) |||
        ((0#23 ++ BitVec.ofBool xchk ++ xrxlen ++ xtxlen : Word) &&& ~~~0x000001FF#32) := by
  refine eq_merge_of_getLsbD fun i hi => ?_
  rw [show (0x000001FF#32) = BitVec.ofNat 32 (2 ^ 9 - 1) from rfl, getLsbD_lowMask 9 i hi]
  simp only [BitVec.getLsbD_append, BitVec.getLsbD_ofBool, BitVec.getLsbD_extractLsb', BitVec.getLsbD_zero]
  grind

/-- A register no write changes. -/
theorem nothing_merge (y : Word) : y = (v &&& 0#32) ||| (y &&& ~~~0#32) :=
  eq_merge_of_getLsbD fun _ _ => by simp
end Merges

end Sys2Proof.Machine

namespace Sys2Proof.Machine

section RegisterWrite
variable {s : State} {offset o : Nat} {v : Word}

/-- A host write to one register, neither an acceptance nor an acknowledgement nor the soft reset, leaves every other
register (10_state R30). -/
theorem readCsr_writeCsr_other (hcmd : offset ≠ 0x04) (hstatus : offset ≠ 0x08)
    (hsrst : offset = 0x00 → v.getLsbD 2 = false) (ho : o ≠ offset) :
    (s.writeCsr offset v).readCsr o = s.readCsr o := by
  by_cases hmap : o ∈ (registerMap s.csr).map RegisterRow.offset
  · simp only [registerMap_offsets, List.mem_cons, List.not_mem_nil, or_false] at hmap
    unfold State.writeCsr
    split
    case h_2 => exact absurd rfl hcmd
    case h_3 => exact absurd rfl hstatus
    case h_21 => rfl
    case h_1 =>
      simp only [hsrst rfl, Bool.false_eq_true, if_false]
      simp only [ho, false_or] at hmap
      casesm* _ ∨ _
      all_goals
        subst o
        rfl
    all_goals
      simp only [ho, false_or] at hmap
      casesm* _ ∨ _
      all_goals
        subst o
        rfl
  · rw [readCsr_reserved hmap, readCsr_reserved hmap]

/-- An offset that is no register, or one the host cannot write, ignores the write (10_state R31). -/
theorem writableBits_eq_zero
    (h : offset ∉ [0x00, 0x0C, 0x10, 0x14, 0x1C, 0x24, 0x2C, 0x30, 0x34, 0x38, 0x3C, 0x40, 0x60, 0x64, 0x68, 0x70, 0x74,
      0x78]) : writableBits offset = 0#32 := by
  simp only [List.mem_cons, List.not_mem_nil, or_false, not_or] at h
  simp [writableBits, h]

/-- The register written takes the word in its writable bits and keeps the others (10_state R30 to R59). -/
theorem readCsr_writeCsr_same (hcmd : offset ≠ 0x04) (hstatus : offset ≠ 0x08)
    (hsrst : offset = 0x00 → v.getLsbD 2 = false) :
    (s.writeCsr offset v).readCsr offset =
      (v &&& writableBits offset) ||| (s.readCsr offset &&& ~~~writableBits offset) := by
  unfold State.writeCsr
  split
  case h_2 => exact absurd rfl hcmd
  case h_3 => exact absurd rfl hstatus
  case h_1 =>
    simp only [hsrst rfl, Bool.false_eq_true, if_false]
    exact ctrl_merge v s.csr.ctrl
  case h_10 => exact bit_merge v s.csr.bitval
  case h_11 => exact revb_merge v s.csr.byteIn s.csr.byteOut
  case h_12 => exact xctl_merge v s.csr.xtxlen s.csr.xrxlen s.csr.xchk
  case h_6 | h_7 | h_8 | h_9 | h_13 | h_14 => exact word_merge v _
  case h_4 | h_15 | h_16 | h_17 | h_18 | h_19 | h_20 => exact setWidth_merge (k := 8) v _
  case h_5 => exact setWidth_merge (k := 16) v _
  case h_21 =>
    rw [writableBits_eq_zero (by simp; tauto)]
    exact nothing_merge v _

theorem readCsr_writeCsr (hcmd : offset ≠ 0x04) (hstatus : offset ≠ 0x08)
    (hsrst : offset = 0x00 → v.getLsbD 2 = false) (o : Nat) :
    (s.writeCsr offset v).readCsr o =
      if o = offset then (v &&& writableBits offset) ||| (s.readCsr offset &&& ~~~writableBits offset)
      else s.readCsr o := by
  split
  · subst o
    exact readCsr_writeCsr_same hcmd hstatus hsrst
  · exact readCsr_writeCsr_other hcmd hstatus hsrst ‹_›

/-- Such a write changes registers only. -/
theorem writeCsr_eq_withCsr (hcmd : offset ≠ 0x04) (hstatus : offset ≠ 0x08)
    (hsrst : offset = 0x00 → v.getLsbD 2 = false) : ∃ c, s.writeCsr offset v = s.withCsr c := by
  rcases writeCsr_cases s offset v with ⟨h0, hv, -⟩ | ⟨h4, -⟩ | ⟨h8, -⟩ | ⟨c, he, -⟩
  · rw [hsrst h0] at hv
    cases hv
  · exact absurd h4 hcmd
  · exact absurd h8 hstatus
  · exact ⟨c, he⟩
end RegisterWrite

/-- Settles O18: the registers read as their fields, other offsets as 0, and a write reaches the writable bits of its
own register alone. -/
theorem registerFileReadsAndWrites : Obligations.RegisterFileReadsAndWrites := by
  unfold Obligations.RegisterFileReadsAndWrites
  refine ⟨readCsr_toNat, fun s offset h => readCsr_reserved h, fun s offset hlt halign => ⟨?_, ?_⟩⟩
  · exact hostAccess_read_csr hlt halign
  · intro v hbusy hcmd hstatus hsrst
    have hwrite : s.hostAccess (.write (BitVec.ofNat 32 offset) .word v) = (s.writeCsr offset v).reply 0 false := by
      rw [hostAccess_write_csr hlt halign, hbusy]
      rfl
    obtain ⟨c, hc⟩ := writeCsr_eq_withCsr (s := s) hcmd hstatus hsrst
    rw [hwrite]
    refine ⟨readCsr_writeCsr hcmd hstatus hsrst, ?_⟩
    rw [hc]
    exact ⟨fun _ => rfl, ⟨rfl, rfl, rfl⟩, rfl, rfl, rfl⟩

end Sys2Proof.Machine

/-! ### Runs of a transaction -/

namespace Sys2Proof.Machine

/-! Runs by their first step. -/

@[simp] theorem runs_zero (s : State) : runs 0 s = .next s := rfl

theorem runs_succ {s t : State} (k : Nat) (h : step s = .next t) : runs (k + 1) s = runs k t := by
  simp only [runs, Host.Core.run]
  rw [show Sys2Proof.core.step s = .next t from h]

theorem runs_one {s t : State} (h : step s = .next t) : runs 1 s = .next t := runs_succ 0 h

theorem runs_add {s t : State} {j : Nat} (k : Nat) (h : runs j s = .next t) : runs (j + k) s = runs k t := by
  induction j generalizing s with
  | zero =>
    obtain rfl := Host.Outcome.next.inj h
    rw [Nat.zero_add]
  | succ j ih =>
    cases hstep : step s with
    | next u =>
      rw [runs_succ j hstep] at h
      rw [Nat.succ_add, runs_succ _ hstep, ih h]
    | fault r => nomatch r
    | refused r =>
      simp only [runs, Host.Core.run] at h
      rw [show Sys2Proof.core.step s = .refused r from hstep] at h
      cases h

/-- The transaction `cmd` blocked at `p` in state `s`, its progress bits showing it (10_state R44, R60). -/
def State.blockedAt (s : State) (cmd : Word) (p : Point) (l : Locals) : State :=
  { s.withStatus (s.csr.status.waitingFor p.waiting) with seq := .txn cmd p l }

section BlockedAt
variable (s : State) (cmd : Word) (p q : Point) (l : Locals) (b : Byte) (e : ErrCode)

@[simp] theorem blockedAt_seq : (s.blockedAt cmd p l).seq = .txn cmd p l := rfl
@[simp] theorem blockedAt_agenda : (s.blockedAt cmd p l).agenda = s.agenda := rfl
@[simp] theorem blockedAt_rx : (s.blockedAt cmd p l).rx = s.rx := rfl
@[simp] theorem blockedAt_moveTo : (s.blockedAt cmd p l).moveTo q = s.blockedAt cmd q l := rfl
@[simp] theorem blockedAt_sendByte : (s.blockedAt cmd p l).sendByte b = (s.sendByte b).blockedAt cmd p l := rfl
@[simp] theorem blockedAt_pop : (s.blockedAt cmd p l).pop = s.pop.blockedAt cmd p l := rfl
@[simp] theorem blockedAt_completeWith : (s.blockedAt cmd p l).completeWith e = s.completeWith e := rfl
@[simp] theorem blockedAt_setLaststat : (s.blockedAt cmd p l).setLaststat b = (s.setLaststat b).blockedAt cmd p l := rfl
theorem moveTo_eq_blockedAt {s : State} (h : s.seq = .txn cmd p l) : s.moveTo q = s.blockedAt cmd q l :=
  moveTo_of_txn s q p l h
end BlockedAt

/-! ### A transaction's steps -/

/-- The move is one a transaction looks at: neither the host's nor the device's. -/
def Action.ofTransaction : Action → Bool
  | .host _ | .device _ => false
  | .take | .deliver | .error | .tick | .block => true

/-- In a transaction, and in the frame it is sending, the step is one step of its instruction. -/
theorem step_of_transaction {s : State} {i : Instr} {cmd : Word} {p : Point} {l : Locals} {a : Action}
    {rest : List Action} (henc : encode i = .command cmd) (hcode : firstCode s.params i ≠ none)
    (hseq : s.seq = .txn cmd p l) (hagenda : s.agenda = a :: rest) (ha : a.ofTransaction = true) :
    step s = popNext (exec i s) := by
  have hmoves : s.blockMoves = true := by
    refine blockMoves_of_txn hseq (fun x hx => ?_) (fun x hx => ?_)
    all_goals
      rw [hagenda] at hx
      obtain rfl := Option.some.inj hx
      cases ha
  by_cases hp : ∃ w b j, p = .frame w b ∧ decodeFrame w = .ok j
  · obtain ⟨w, b, j, rfl, hj⟩ := hp
    rw [step_of_fetched hmoves (fetched_frame hseq hj) hj,
      wireStepsAreTransactionSteps s i j cmd w b l henc hcode hseq hj]
  · refine step_of_fetched hmoves (fetched_command hseq fun w b j hw hj => hp ⟨w, b, j, hw, hj⟩) ?_
    exact decodeCommand_of_encode henc

@[simp] theorem first_commandFrame (code : Byte) : (commandFrame code).first = 0x1B#8 := by
  apply BitVec.eq_of_getLsbD_eq
  intro k hk
  simp only [commandFrame, FrameWord.first, BitVec.getLsbD_extractLsb', BitVec.getLsbD_append]
  grind

@[simp] theorem second_commandFrame (code : Byte) : (commandFrame code).second = code := by
  apply BitVec.eq_of_getLsbD_eq
  intro k hk
  simp only [commandFrame, FrameWord.second, BitVec.getLsbD_extractLsb', BitVec.getLsbD_append]
  grind

/-- The pseudocode of the transaction `cmd`, by its pieces. -/
structure Pseudocode (cmd : Word) (begins : State → State) (afterFrame : FrameWord → State → State)
    (sent : Point → State → State) (received : Point → Byte → State → State) (settled : State → State) : Prop where
  step : ∀ {s : State} {p : Point} {l : Locals} {a : Action} {rest : List Action}, s.seq = .txn cmd p l →
    s.agenda = a :: rest → a.ofTransaction = true →
    Machine.step s = .next (transactionStep begins afterFrame sent received settled s).pop

namespace Pseudocode
variable {cmd : Word} {begins : State → State} {afterFrame : FrameWord → State → State} {sent : Point → State → State}
  {received : Point → Byte → State → State} {settled : State → State} {s : State} {l : Locals} {rest : List Action}
  (hcode : Pseudocode cmd begins afterFrame sent received settled)
include hcode

theorem step_block (hseq : s.seq = .txn cmd .start l) (hagenda : s.agenda = .block :: rest) :
    Machine.step s = .next (begins s).pop := by
  rw [hcode.step hseq hagenda rfl, transactionStep_start hseq (.inr (by simp [State.event, hagenda]))]

theorem step_take_escape {w : FrameWord} (hagenda : s.agenda = .take :: rest) :
    Machine.step (s.blockedAt cmd (.frame w .esc) l) =
      .next ((s.sendByte w.first).pop.blockedAt cmd (.frame w .code) l) := by
  rw [hcode.step (blockedAt_seq ..) hagenda rfl, transactionStep_frame (blockedAt_seq ..)]
  simp [frameStep, State.event, hagenda]

theorem step_take_code {w : FrameWord} (hagenda : s.agenda = .take :: rest) :
    Machine.step (s.blockedAt cmd (.frame w .code) l) =
      .next (afterFrame w ((s.sendByte w.second).blockedAt cmd (.frame w .code) l)).pop := by
  rw [hcode.step (blockedAt_seq ..) hagenda rfl, transactionStep_frame (blockedAt_seq ..)]
  simp [frameStep, State.event, hagenda]

theorem step_take {p : Point} (hp : ∀ w b, p ≠ .frame w b) (hw : p.waiting = .send)
    (hagenda : s.agenda = .take :: rest) :
    Machine.step (s.blockedAt cmd p l) =
      .next (sent p ((s.sendByte ((s.blockedAt cmd p l).offered p)).blockedAt cmd p l)).pop := by
  rw [hcode.step (blockedAt_seq ..) hagenda rfl,
    transactionStep_take (blockedAt_seq ..) hp hw (by simp [State.event, hagenda]), blockedAt_sendByte]

theorem step_deliver {p : Point} {b : Byte} {bytes : List Byte} (hw : p.waiting = .recv)
    (hagenda : s.agenda = .deliver :: rest) (hrx : s.rx = b :: bytes) :
    Machine.step (s.blockedAt cmd p l) = .next (received p b (State.blockedAt { s with rx := bytes } cmd p l)).pop := by
  rw [hcode.step (blockedAt_seq ..) hagenda rfl,
    transactionStep_deliver (blockedAt_seq ..) hw (by simp [State.event, hagenda]) hrx]
  rfl

/-- The start of a transaction and its first command frame: three steps, after which the pseudocode goes on. -/
theorem runs_frame {s₀ : State} {code : Byte} (hseq : s.seq = .txn cmd .start l)
    (hagenda : s.agenda = .block :: .take :: .take :: rest)
    (hbegins : begins s = s₀.blockedAt cmd (.frame (commandFrame code) .esc) l) (h₀ : s₀.agenda = s.agenda) :
    runs 3 s = .next (afterFrame (commandFrame code) (State.blockedAt
      { s₀ with sent := s₀.sent ++ [0x1B#8, code], agenda := .take :: rest }
      cmd (.frame (commandFrame code) .code) l)).pop := by
  rw [runs_succ 2 (hcode.step_block hseq hagenda), hbegins, blockedAt_pop,
    runs_succ 1 (hcode.step_take_escape (rest := .take :: rest) (by simp [h₀, hagenda])),
    runs_one (hcode.step_take_code (rest := rest) (by simp [h₀, hagenda]))]
  simp [State.sendByte, State.pop, h₀, hagenda]

end Pseudocode

/-! ### Receiving a fixed-size response -/

/-- The registers with one more byte in the response buffer, while there is room (10_state R47). -/
def Csr.push (c : Csr) (b : Byte) : Csr :=
  { c with
    respb := if c.resplen.toNat < 16 then c.respb.setIfInBounds c.resplen.toNat b else c.respb
    resplen := if c.resplen.toNat < 16 then c.resplen + 1 else c.resplen }

/-- The registers with the bytes appended, one after the other. -/
def Csr.pushAll (c : Csr) (bytes : List Byte) : Csr := bytes.foldl Csr.push c

theorem appendReply_eq_push (s : State) (b : Byte) : s.appendReply b = s.withCsr (s.csr.push b) := by
  rcases appendReply_cases s b with ⟨hroom, he⟩ | ⟨hfull, he⟩
  · rw [he]
    simp only [Csr.push, hroom, if_true]
  · rw [he]
    simp only [Csr.push, Nat.not_lt.2 hfull, if_false]
    rfl

section Push
variable (c : Csr) (b : Byte) (bytes : List Byte)

@[simp] theorem pushAll_nil : c.pushAll [] = c := rfl
@[simp] theorem pushAll_cons : c.pushAll (b :: bytes) = (c.push b).pushAll bytes := rfl

/-- Appending touches the response buffer and its length only. -/
theorem pushAll_eq :
    c.pushAll bytes = { c with resplen := (c.pushAll bytes).resplen, respb := (c.pushAll bytes).respb } := by
  induction bytes generalizing c with
  | nil => rfl
  | cons b bytes ih =>
    rw [pushAll_cons, ih]
    rfl

theorem push_resplen (h : c.resplen.toNat < 16) : (c.push b).resplen.toNat = c.resplen.toNat + 1 := by
  have h1 : (1 : BitVec 5).toNat = 1 := rfl
  simp only [Csr.push, h, if_true, BitVec.toNat_add, h1]
  omega

theorem push_respb_getD (h : c.resplen.toNat < 16) (j : Nat) :
    (c.push b).respb.getD j 0 = if j = c.resplen.toNat then b else c.respb.getD j 0 := by
  simp only [Csr.push, h, if_true]
  simp only [Vector.getD, Vector.toArray_setIfInBounds, Array.getD_eq_getD_getElem?, Array.getElem?_setIfInBounds,
    Vector.size_toArray, h, if_true, eq_comm (a := j)]
  split
  all_goals rfl

/-- Within the buffer each byte is counted. -/
theorem pushAll_resplen (h : c.resplen.toNat + bytes.length ≤ 16) :
    (c.pushAll bytes).resplen.toNat = c.resplen.toNat + bytes.length := by
  induction bytes generalizing c with
  | nil => rfl
  | cons b bytes ih =>
    rw [List.length_cons] at h ⊢
    have hb := push_resplen c b (by omega)
    rw [pushAll_cons, ih _ (by omega), hb]
    omega

/-- Within the buffer the bytes stand one after the other, and the others are kept. -/
theorem pushAll_respb_getD (h : c.resplen.toNat + bytes.length ≤ 16) (j : Nat) :
    (c.pushAll bytes).respb.getD j 0 =
      if c.resplen.toNat ≤ j ∧ j < c.resplen.toNat + bytes.length then bytes.getD (j - c.resplen.toNat) 0
      else c.respb.getD j 0 := by
  induction bytes generalizing c with
  | nil =>
    rw [if_neg (by simp)]
    rfl
  | cons b bytes ih =>
    rw [List.length_cons] at h ⊢
    have hb := push_resplen c b (by omega)
    rw [pushAll_cons, ih _ (by omega), hb, push_respb_getD c b (by omega)]
    by_cases hj : j = c.resplen.toNat
    · subst hj
      rw [if_neg (by omega), if_pos rfl, if_pos (by omega)]
      simp
    · rw [if_neg hj]
      by_cases hin : c.resplen.toNat + 1 ≤ j ∧ j < c.resplen.toNat + 1 + bytes.length
      · rw [if_pos hin, if_pos (by omega), show j - c.resplen.toNat = (j - (c.resplen.toNat + 1)) + 1 by omega]
        simp
      · rw [if_neg hin, if_neg (by omega)]
end Push

/-- A cleared response buffer that receives at most sixteen bytes holds them, and its old bytes behind them. -/
theorem responseIs_of_pushAll {s t : State} {resp : List Byte} (hlen : resp.length ≤ 16)
    (hresplen : t.csr.resplen = (Csr.pushAll { s.csr with resplen := 0 } resp).resplen)
    (hrespb : t.csr.respb = (Csr.pushAll { s.csr with resplen := 0 } resp).respb) : s.responseIs t resp := by
  have h0 : (0 : BitVec 5).toNat + resp.length ≤ 16 := by simpa using hlen
  constructor
  · rw [hresplen, ← BitVec.toNat_inj, pushAll_resplen _ _ h0, BitVec.toNat_ofNat]
    simp
    omega
  · intro j _
    rw [State.respByte, hrespb, pushAll_respb_getD _ _ h0]
    simp [State.respByte]

namespace Pseudocode
variable {cmd : Word} {begins : State → State} {afterFrame : FrameWord → State → State} {sent : Point → State → State}
  {finish : Byte → State → State} {settled : State → State} {l : Locals} {b : Byte} {more : List Byte}
  {rest : List Action}

/-- A fixed-size response of which `bytes` and then `b` are still to come: a step for each byte, and what follows the
last one is `finish`. -/
theorem runs_reply (hcode : Pseudocode cmd begins afterFrame sent (replyReceived finish) settled) (bytes : List Byte)
    {s : State} (hrx : s.rx = bytes ++ b :: more)
    (hagenda : s.agenda = List.replicate bytes.length .deliver ++ .deliver :: rest) :
    runs (bytes.length + 1) (s.blockedAt cmd (.reply (bytes.length + 1)) l) =
      .next (finish b (State.blockedAt
        { s with csr := s.csr.pushAll (bytes ++ [b]), rx := more, agenda := .deliver :: rest }
        cmd (.reply 1) l)).pop := by
  induction bytes generalizing s with
  | nil =>
    have hlast : s.agenda = .deliver :: rest := hagenda
    rw [List.length_nil, runs_one (hcode.step_deliver rfl hlast hrx), ← hlast]
    simp only [replyReceived, le_refl, if_true, appendReply_eq_push]
    rfl
  | cons c bytes ih =>
    have hnext : s.agenda = .deliver :: (List.replicate bytes.length .deliver ++ .deliver :: rest) := hagenda
    rw [List.length_cons, runs_succ _ (hcode.step_deliver rfl hnext hrx)]
    simp only [replyReceived, appendReply_eq_push]
    rw [if_neg (by omega), Nat.add_sub_cancel]
    exact ih (s := { s with csr := s.csr.push c, rx := bytes ++ b :: more, agenda := s.agenda.tail }) rfl
      (by rw [hnext, List.tail_cons])

end Pseudocode

end Sys2Proof.Machine

/-! ### DEV.XCMD -/

namespace Sys2Proof.Machine

theorem xcmd_pseudocode (code : Byte) :
    Pseudocode (commandWord code false 0 0x3A) (xcmdBegins code) xcmdAfterFrame xcmdSent (replyReceived xcmdFinish)
      id where
  step hseq hagenda ha := by
    rw [step_of_transaction (i := .devXcmd code) rfl (by simp [firstCode]) hseq hagenda ha]
    simp only [exec, execDevXcmd, inTransaction_of_txn _ _ _ hseq, popNext]

/-- The operand registers, in the order the payload is sent (10_state R58). -/
theorem payload_eq_map {s : State} (h : s.csr.xtxlen.toNat ≤ 8) :
    s.payload = (List.range' 0 s.csr.xtxlen.toNat).map s.payloadByte := by
  have hbyte : ∀ k, (if k < 4 then s.csr.xpay0 else s.csr.xpay1).extractLsb' (8 * (k % 4)) 8 = s.payloadByte k := by
    intro k
    have hk : k / 4 = 0 ↔ k < 4 := by omega
    simp only [State.payloadByte, byteOfWord, hk]
  rw [State.payload, ← List.map_take, List.take_range, Nat.min_eq_left h, List.range_eq_range']
  exact List.map_congr_left fun k _ => hbyte k

section Xcmd
variable {s : State} {code : Byte} {cmd : Word} {p : Point} {l : Locals} {rest : List Action}

/-- Where the position came from does not matter behind the payload. -/
theorem xcmdReceive_blockedAt :
    xcmdReceive (s.blockedAt cmd p l) =
      if s.csr.xrxlen.toNat = 0 then s.completeWith .none else s.blockedAt cmd (.reply s.csr.xrxlen.toNat) l := rfl

theorem xcmdPayloadFrom_of_lt {k : Nat} (h : k < s.csr.xtxlen.toNat) :
    xcmdPayloadFrom k (s.blockedAt cmd p l) = s.blockedAt cmd (.payload k) l := if_pos h

theorem xcmdPayloadFrom_of_le {k : Nat} (h : s.csr.xtxlen.toNat ≤ k) :
    xcmdPayloadFrom k (s.blockedAt cmd p l) = xcmdReceive (s.blockedAt cmd p l) := if_neg (Nat.not_lt.2 h)

theorem xcmdReceive_pop : (xcmdReceive (s.blockedAt cmd p l)).pop = xcmdReceive (s.pop.blockedAt cmd p l) := by
  rw [xcmdReceive_blockedAt, xcmdReceive_blockedAt, pop_csr]
  split
  all_goals rfl

theorem xcmdPayloadFrom_pop (k : Nat) :
    (xcmdPayloadFrom k (s.blockedAt cmd p l)).pop = xcmdPayloadFrom k (s.pop.blockedAt cmd p l) := by
  rcases Nat.lt_or_ge k s.csr.xtxlen.toNat with h | h
  · rw [xcmdPayloadFrom_of_lt h, xcmdPayloadFrom_of_lt (s := s.pop) h, blockedAt_pop]
  · rw [xcmdPayloadFrom_of_le h, xcmdPayloadFrom_of_le (s := s.pop) h, xcmdReceive_pop]

/-- The payload from byte `k` on: a step for each byte, after which the response is awaited (43_serial_protocol
R300). -/
theorem runs_payload (n k : Nat) (hn : k + n = s.csr.xtxlen.toNat)
    (hagenda : s.agenda = List.replicate n .take ++ rest) :
    runs n (xcmdPayloadFrom k (s.blockedAt (commandWord code false 0 0x3A) p l)) =
      .next (xcmdReceive (State.blockedAt
        { s with sent := s.sent ++ (List.range' k n).map s.payloadByte, agenda := rest }
        (commandWord code false 0 0x3A) p l)) := by
  induction n generalizing k s p with
  | zero =>
    have hrest : s.agenda = rest := hagenda
    rw [xcmdPayloadFrom_of_le (by omega), ← hrest]
    simp
  | succ n ih =>
    have hnext : s.agenda = .take :: (List.replicate n .take ++ rest) := hagenda
    rw [xcmdPayloadFrom_of_lt (by omega), runs_succ n ((xcmd_pseudocode code).step_take (by simp) rfl hnext), xcmdSent,
      xcmdPayloadFrom_pop, List.range'_succ, List.map_cons, List.append_cons]
    refine ih (s := (s.sendByte (s.payloadByte k)).pop) (k + 1) ?_ ?_
    · show k + 1 + n = s.csr.xtxlen.toNat
      omega
    · rw [pop_agenda, sendByte_agenda, hnext, List.tail_cons]

/-- The end of DEV.XCMD after its last response byte: the byte is checked as a status only when XCHK asks for it. -/
theorem xcmdFinish_blockedAt (b : Byte) :
    xcmdFinish b (s.blockedAt cmd p l) =
      if s.csr.xchk then (s.setLaststat b).completeWith (statusVerdict b) else s.completeWith .none := rfl

/-- DEV.XCMD up to its response: the frame and the payload are sent. -/
theorem runs_xcmd_sends (hseq : s.seq = .txn (commandWord code false 0 0x3A) .start l) (hlen : s.csr.xtxlen.toNat ≤ 8)
    (hagenda : s.agenda = [.block, .take, .take] ++ List.replicate s.csr.xtxlen.toNat .take ++ rest) :
    runs (3 + s.csr.xtxlen.toNat) s =
      .next (xcmdReceive (State.blockedAt
        { s.clearReply with sent := s.sent ++ [0x1B#8, code] ++ s.payload, agenda := rest }
        (commandWord code false 0 0x3A) (.frame (commandFrame code) .code) l)) := by
  have hbegins : xcmdBegins code s =
      s.clearReply.blockedAt (commandWord code false 0 0x3A) (.frame (commandFrame code) .esc) l := by
    have hlegal : s.payloadLegal = true := by simpa [State.payloadLegal] using hlen
    rw [xcmdBegins, if_pos hlegal]
    exact moveTo_eq_blockedAt _ _ _ _ hseq
  rw [runs_add _ ((xcmd_pseudocode code).runs_frame hseq (by simpa using hagenda) hbegins rfl), xcmdAfterFrame,
    xcmdPayloadFrom_pop, payload_eq_map hlen]
  exact runs_payload (s := { s.clearReply with
    sent := s.sent ++ [0x1B#8, code], agenda := List.replicate s.csr.xtxlen.toNat .take ++ rest })
    _ 0 (Nat.zero_add _) rfl

/-- The registers when the bytes of a response are in and `LASTSTAT` is `last`. -/
def Csr.afterResponse (c : Csr) (resp : List Byte) (last : Byte) : Csr :=
  { c.pushAll resp with status := { c.status with laststat := last } }

theorem afterResponse_self (c : Csr) (resp : List Byte) : c.afterResponse resp c.status.laststat = c.pushAll resp := by
  rw [Csr.afterResponse, pushAll_eq]

theorem afterResponse_eq (c : Csr) (resp : List Byte) (last : Byte) :
    c.afterResponse resp last =
      { c.pushAll resp with status := { (c.pushAll resp).status with laststat := last } } := by
  rw [Csr.afterResponse, pushAll_eq]

/-- DEV.XCMD from its response on: with no byte to receive it completes at once, otherwise at the last byte. -/
theorem runs_xcmdReceive {resp more : List Byte} (hresp : resp.length = s.csr.xrxlen.toNat) (hrx : s.rx = resp ++ more)
    (hagenda : s.agenda = List.replicate resp.length .deliver ++ rest) :
    runs resp.length (xcmdReceive (s.blockedAt (commandWord code false 0 0x3A) p l)) =
      .next (State.completeWith
        { s with
          csr := s.csr.afterResponse resp
            (if s.csr.xchk = true ∧ resp ≠ [] then resp.getLastD 0 else s.csr.status.laststat)
          rx := more, agenda := rest }
        (if s.csr.xchk = true ∧ resp ≠ [] then statusVerdict (resp.getLastD 0) else .none)) := by
  rw [xcmdReceive_blockedAt, ← hresp]
  rcases List.eq_nil_or_concat' resp with rfl | ⟨bytes, b, rfl⟩
  · have hmore : s.rx = more := hrx
    have hrest : s.agenda = rest := hagenda
    rw [if_pos List.length_nil, ← hmore, ← hrest]
    simp only [ne_eq, not_true, and_false, if_false]
    rfl
  · have hlen : (bytes ++ [b]).length = bytes.length + 1 := by simp
    have hlast : (bytes ++ [b]).getLastD 0 = b := by simp
    have hne : bytes ++ [b] ≠ [] := by simp
    have hxchk : (s.csr.pushAll (bytes ++ [b])).xchk = s.csr.xchk := by rw [pushAll_eq]
    rw [hlen, if_neg (by omega), (xcmd_pseudocode code).runs_reply (b := b) (more := more) (rest := rest) bytes
      (by simpa using hrx) (by rw [hagenda, hlen, List.replicate_succ']; simp), xcmdFinish_blockedAt]
    simp only [hlast, hxchk, hne, ne_eq, not_false_iff, and_true]
    split
    · rw [afterResponse_eq]
      rfl
    · rw [afterResponse_self]
      rfl

/-- Completion after a response: the registers of the start with the response in the buffer and `LASTSTAT` as said. -/
theorem endsWith_of_afterResponse {s u : State} {resp : List Byte} {last : Byte} {e : ErrCode}
    (hcsr : u.csr = Csr.afterResponse { s.csr with resplen := 0 } resp last) (hs : s.sameSurroundings u) :
    s.endsWith (u.completeWith e)
      { s.csr with
        resplen := (u.completeWith e).csr.resplen, respb := (u.completeWith e).csr.respb
        status := { s.csr.status with laststat := last } } e := by
  refine ⟨?_, rfl, hs⟩
  rw [completeWith_csr, hcsr, completed_eq_statusOnCompletion, Csr.afterResponse, pushAll_eq]

end Xcmd

/-- Settles O58: the frame, the payload and the response, one after the other. -/
theorem genericCommandSendsItsPayload : Obligations.GenericCommandSendsItsPayload := by
  unfold Obligations.GenericCommandSendsItsPayload
  intro s code resp more rest hseq hlen hresp hrx hagenda
  have hsends := runs_xcmd_sends (rest := List.replicate resp.length .deliver ++ rest) hseq hlen
    (by simpa using hagenda)
  have hfits : resp.length ≤ 16 := by omega
  refine ⟨_, (runs_add resp.length hsends).trans (runs_xcmdReceive hresp hrx rfl), ?_, ?_, fun _ => rfl, rfl, rfl, rfl⟩
  · exact responseIs_of_pushAll hfits rfl rfl
  · exact endsWith_of_afterResponse rfl ⟨rfl, rfl, rfl⟩

end Sys2Proof.Machine

/-! ### What every step keeps -/

namespace Sys2Proof.Machine

/-- The predicate is kept by each update of the block and its host interface: registers, sequencer, memory bytes, and
what a host access answers. Whatever has this property is kept by every host access and every compute operation. -/
structure KeptByUpdates (P : State → Prop) : Prop where
  csr : ∀ {s : State} c, P s → P { s with csr := c }
  seq : ∀ {s : State} q, P s → P { s with seq := q }
  writeBytes : ∀ {s : State} a bs, P s → P (s.writeBytes a bs)
  answer : ∀ {s : State} r n, P s → P { s with busReply := r, draws := n }

/-- The predicate is kept by the updates of the streams too. Whatever has this property is kept by every step up to the
agenda's move (`KeptBySteps.step`). -/
structure KeptBySteps (P : State → Prop) : Prop extends KeptByUpdates P where
  streams : ∀ {s : State} rx sent, P s → P { s with rx := rx, sent := sent }

section ExecOutcome
variable {s : State} {cmd : Word}

@[simp] theorem inTransaction_params : (s.inTransaction cmd).params = s.params := by
  unfold State.inTransaction
  split
  all_goals rfl

/-- The sequencer is at a position already, or goes to the start. -/
theorem inTransaction_seq (s : State) (cmd : Word) :
    s.inTransaction cmd = s ∨ s.inTransaction cmd = { s with seq := .txn cmd .start .empty } := by
  unfold State.inTransaction
  split
  · exact .inl rfl
  · exact .inr rfl
  · exact .inr rfl

theorem exists_inTransaction_seq (s : State) (cmd : Word) : ∃ c p l, (s.inTransaction cmd).seq = .txn c p l := by
  unfold State.inTransaction
  split
  · exact ⟨_, _, _, ‹_›⟩
  · exact ⟨_, _, _, rfl⟩
  · exact ⟨_, _, _, rfl⟩

@[simp] theorem inTransaction_inTransaction : (s.inTransaction cmd).inTransaction cmd = s.inTransaction cmd := by
  obtain ⟨c, p, l, hseq⟩ := exists_inTransaction_seq s cmd
  exact inTransaction_of_txn _ p l hseq

/-- A transaction's step is a function of the state in which the transaction has begun (60_exceptions R370). -/
theorem exec_factors_through_inTransaction {i : Instr} (hi : isTransaction i = true) :
    ∃ (cmd : Word) (f : State → State), ∀ s, exec i s = .next (f (s.inTransaction cmd)) := by
  cases i with
  | devReset | devCommtest | devReadiso | devReadraw | devWriteiso | devWriteraw | devErase | devModel | devFirmware
  | devXcmd => exact ⟨_, _, fun _ => rfl⟩
  | devLzquery =>
    exact ⟨commandWord 0 false 0 0x39, fun u => transactionStep (queryBegins u.params.lzCmd) lzqueryAfterFrame
      noPosition (replyReceived escapeFinish) id u, fun s => by simp only [exec, execDevLzquery, inTransaction_params]⟩
  | _ => cases hi

theorem exec_eq_exec_inTransaction {i : Instr} (hi : isTransaction i = true) (s : State) :
    ∃ cmd, exec i s = exec i (s.inTransaction cmd) := by
  obtain ⟨cmd, f, he⟩ := exec_factors_through_inTransaction hi
  exact ⟨cmd, by rw [he, he, inTransaction_inTransaction]⟩

/-- Every instruction has a meaning in every state: no arm faults or refuses (introduction of 60_exceptions). -/
theorem exists_exec_eq_next (i : Instr) (s : State) : ∃ t, exec i s = .next t := by
  cases i
  all_goals exact ⟨_, rfl⟩

theorem exists_blockStep_eq_next (s : State) : ∃ t, blockStep s = .next t := by
  unfold blockStep
  split
  · exact ⟨s, rfl⟩
  · split
    · exact exists_exec_eq_next _ s
    · exact ⟨_, rfl⟩

theorem exists_step_eq_next (s : State) : ∃ t, step s = .next t := by
  unfold step
  split
  · exact ⟨_, rfl⟩
  · exact ⟨_, rfl⟩
  · split
    · obtain ⟨t, ht⟩ := exists_blockStep_eq_next s
      exact ⟨t.pop, by rw [ht, popNext]⟩
    · exact ⟨_, rfl⟩
end ExecOutcome

namespace KeptByUpdates
variable {P : State → Prop} (hP : KeptByUpdates P) {s : State}
include hP

theorem completeWith (e : ErrCode) (h : P s) : P (s.completeWith e) := hP.seq _ (hP.csr _ h)

theorem performIf (legal : Bool) {body : State → State × ErrCode} (hbody : P s → P (body s).1) (h : P s) :
    P (s.performIf legal body) := by
  rcases performIf_cases s legal body with ⟨-, he⟩ | ⟨-, he⟩
  · exact he ▸ hP.completeWith _ (hbody h)
  · exact he ▸ hP.completeWith _ h

theorem performOnTrack (trk : BitVec 2) {body : Track → State → State × ErrCode} (hbody : ∀ t, P s → P (body t s).1)
    (h : P s) : P (s.performOnTrack trk body) := by
  unfold State.performOnTrack
  split
  · exact hP.performIf true (hbody _) h
  · exact hP.completeWith _ h

theorem getbitBody (t : Track) (h : P s) : P (getbitBody t s).1 := by
  simp only [Machine.getbitBody]
  split
  · exact h
  · exact hP.csr _ h

theorem setbitBody (t : Track) (h : P s) : P (setbitBody t s).1 := by
  simp only [Machine.setbitBody]
  split
  · exact h
  · exact hP.writeBytes _ _ h

theorem peakfindBody (h : P s) : P (peakfindBody s) := hP.csr _ (hP.writeBytes _ _ h)

theorem extractBody (h : P s) : P (extractBody s).1 := by
  simp only [Machine.extractBody]
  split_ifs
  · exact hP.csr _ h
  · exact hP.csr _ h
  · exact hP.csr _ (hP.writeBytes _ _ h)

theorem decodeBody (f : Framing) (h : P s) : P (decodeBody f s).1 := by
  unfold Machine.decodeBody
  split
  · exact hP.csr _ h
  · exact hP.csr _ (hP.writeBytes _ _ h)

theorem inTransaction (cmd : Word) (h : P s) : P (s.inTransaction cmd) := by
  rcases inTransaction_seq s cmd with he | he
  · rwa [he]
  · exact he ▸ hP.seq _ h

/-- What is no transaction is a compute operation, which writes memory bytes and registers and completes, or a frame. -/
theorem exec_of_not_transaction {i : Instr} {t : State} (hi : isTransaction i = false) (h : P s)
    (ht : exec i s = .next t) : P t ∨ ∃ code, t = emitFrame code s := by
  cases i with
  | nop => exact .inl (Host.Outcome.next.inj ht ▸ hP.performIf _ id h)
  | revbyte => exact .inl (Host.Outcome.next.inj ht ▸ hP.performIf _ (hP.csr _) h)
  | revbits | rectify => exact .inl (Host.Outcome.next.inj ht ▸ hP.performIf _ (hP.writeBytes _ _) h)
  | peakfind => exact .inl (Host.Outcome.next.inj ht ▸ hP.performIf _ hP.peakfindBody h)
  | extract => exact .inl (Host.Outcome.next.inj ht ▸ hP.performIf _ hP.extractBody h)
  | demod =>
    exact .inl (Host.Outcome.next.inj ht ▸
      hP.performIf _ (fun h => hP.extractBody (hP.peakfindBody (hP.writeBytes _ _ h))) h)
  | decodeAba | decodeIata => exact .inl (Host.Outcome.next.inj ht ▸ hP.performIf _ (hP.decodeBody _) h)
  | getbit trk => exact .inl (Host.Outcome.next.inj ht ▸ hP.performOnTrack trk hP.getbitBody h)
  | setbit trk => exact .inl (Host.Outcome.next.inj ht ▸ hP.performOnTrack trk hP.setbitBody h)
  | revtrack trk => exact .inl (Host.Outcome.next.inj ht ▸ hP.performOnTrack trk (fun _ => hP.writeBytes _ _) h)
  | unpack trk =>
    exact .inl (Host.Outcome.next.inj ht ▸ hP.performOnTrack trk (fun _ h => hP.csr _ (hP.writeBytes _ _ h)) h)
  | devReset | devCommtest | devReadiso | devReadraw | devWriteiso | devWriteraw | devErase | devModel | devFirmware
  | devLzquery | devXcmd => cases hi
  | _ => exact .inr ⟨_, (Host.Outcome.next.inj ht).symm⟩

theorem reply (data : Word) (busError : Bool) (h : P s) : P (s.reply data busError) := hP.answer _ _ h

theorem issue (v : Word) (h : P s) : P (s.issue v) := by
  simp only [State.issue]
  split
  · exact hP.seq _ (hP.csr _ (hP.csr _ h))
  · exact hP.csr _ (hP.csr _ h)

theorem softReset (h : P s) : P s.softReset := hP.seq _ (hP.csr _ h)

theorem writeCell (w : Window) (a : Nat) (v : Word) (h : P s) : P (s.writeCell w a v) := by
  cases w with
  | csr =>
    show P (s.writeCsr a v)
    rcases writeCsr_cases s a v with ⟨-, -, he⟩ | ⟨-, he⟩ | ⟨-, he⟩ | ⟨c, he, -⟩
    · exact he ▸ hP.softReset h
    · exact he ▸ hP.issue v h
    · exact he ▸ hP.csr _ h
    · exact he ▸ hP.csr c h
  | trk | dec | bs | smp | ivl => exact hP.writeBytes _ _ h

theorem writeWhileBusy (a : Nat) (v : Word) (h : P s) : P (s.writeWhileBusy a v) := by
  unfold State.writeWhileBusy
  split_ifs
  · exact hP.csr _ h
  · exact hP.softReset h
  · exact hP.csr _ h
  · exact hP.csr _ h

theorem hostAccess (a : Access) (h : P s) : P (s.hostAccess a) := by
  cases a with
  | read a n =>
    simp only [State.hostAccess, State.memRead]
    split
    · exact hP.reply _ _ h
    · split
      · exact hP.answer _ _ (hP.reply _ _ (hP.csr _ h))
      · exact hP.reply _ _ h
  | write a n v =>
    simp only [State.hostAccess, State.memWrite]
    split
    · exact hP.reply _ _ h
    · split
      · exact hP.reply _ _ (hP.writeWhileBusy _ v h)
      · exact hP.reply _ _ (hP.writeCell _ _ v h)

end KeptByUpdates

namespace KeptBySteps
variable {P : State → Prop} (hP : KeptBySteps P) {s : State}
include hP

/-- The pieces of a transaction's pseudocode are updates. -/
theorem keptByTransactions : KeptByTransactions P where
  moveTo p h := by
    unfold State.moveTo
    split
    · exact hP.seq _ (hP.csr _ h)
    · exact h
    · exact h
  completeWith e h := hP.completeWith e h
  sendByte _ h := hP.streams _ _ h
  takeFromStream rx h := hP.streams rx _ h
  setLocals l h := by
    unfold State.setLocals
    split
    · exact hP.seq _ h
    · exact h
    · exact h
  setAttempts _ h := hP.csr _ h
  setLaststat _ h := hP.csr _ h
  clearReply h := hP.csr _ h
  appendReply b h := by
    rw [appendReply_eq_push]
    exact hP.csr _ h
  clearForRead h := hP.csr _ (hP.csr _ h)
  trackError _ h := hP.csr _ (hP.csr _ h)
  storeTrackByte {s} t b h := by
    rcases storeTrackByte_cases s t b with ⟨-, he⟩ | ⟨-, he⟩
    · exact he ▸ hP.csr _ (hP.writeBytes _ _ h)
    · exact he ▸ hP.csr _ h

/-- Every instruction's step keeps the predicate, in whatever state it is taken. -/
theorem exec {i : Instr} {t : State} (h : P s) (ht : exec i s = .next t) : P t := by
  cases hi : isTransaction i with
  | false =>
    rcases hP.exec_of_not_transaction hi h ht with h | ⟨code, rfl⟩
    · exact h
    · exact hP.keptByTransactions.emitFrame code h
  | true =>
    obtain ⟨cmd, he⟩ := exec_eq_exec_inTransaction hi s
    obtain ⟨_, _, _, hseq⟩ := exists_inTransaction_seq s cmd
    exact hP.keptByTransactions.exec_transaction hi hseq (hP.inTransaction cmd h) (he ▸ ht)

theorem blockStep {t : State} (h : P s) (ht : blockStep s = .next t) : P t := by
  unfold Machine.blockStep at ht
  split at ht
  · exact Host.Outcome.next.inj ht ▸ h
  · split at ht
    · exact hP.exec h ht
    · exact Host.Outcome.next.inj ht ▸ hP.completeWith _ h

/-- A step, whoever makes it, keeps the predicate, and then takes the move off the agenda. -/
theorem step {t : State} (h : P s) (ht : step s = .next t) : ∃ u, P u ∧ t = u.pop := by
  rcases step_cases ht with ⟨a, -, rfl⟩ | ⟨b, -, rfl⟩ | ⟨-, u, hu, rfl⟩ | ⟨-, rfl⟩
  · exact ⟨_, hP.hostAccess a h, rfl⟩
  · exact ⟨_, hP.streams _ _ h, rfl⟩
  · exact ⟨u, hP.blockStep h hu, rfl⟩
  · exact ⟨s, h, rfl⟩
end KeptBySteps

/-- A write of memory bytes is the only update that reaches the memory list, and it keeps the addresses rising. -/
theorem mem_wf_keptBySteps : KeptBySteps fun s => s.mem.wf where
  csr _ h := h
  seq _ h := h
  writeBytes a bs h := storeAll_wf a bs h
  streams _ _ h := h
  answer _ _ h := h

/-- No update reaches the parameters or the moves to come. -/
theorem params_agenda_keptBySteps (p : Params) (moves : List Action) :
    KeptBySteps fun s => s.params = p ∧ s.agenda = moves where
  csr _ h := h
  seq _ h := h
  writeBytes _ _ h := h
  streams _ _ h := h
  answer _ _ h := h

/-- Settles O9: every step is made of updates that keep the canonical form, and taking a move off the agenda leaves the
memory. -/
theorem memoryCanonicalFormIsKept : Obligations.MemoryCanonicalFormIsKept := by
  unfold Obligations.MemoryCanonicalFormIsKept
  intro s t h hstep
  obtain ⟨u, hu, rfl⟩ := mem_wf_keptBySteps.step h hstep
  exact hu

/-- Settles O7: every instruction has a meaning in every state, and nothing but the agenda's own move reaches the
parameters or the agenda. -/
theorem everyStepAnswersNext : Obligations.EveryStepAnswersNext := by
  unfold Obligations.EveryStepAnswersNext
  intro s
  obtain ⟨t, hstep⟩ := exists_step_eq_next s
  obtain ⟨u, ⟨hparams, hagenda⟩, rfl⟩ := (params_agenda_keptBySteps s.params s.agenda).step ⟨rfl, rfl⟩ hstep
  exact ⟨u.pop, hstep, hparams, by rw [pop_agenda, hagenda]⟩

end Sys2Proof.Machine

/-! ### Accesses and the address map -/

namespace Sys2Proof.Machine

/-- An address in a window is inside a row of the address map (20_memory R92). -/
theorem exists_row_of_windowAt {p : Params} {a : Nat} {w : Window} (h : windowAt p a = some w) :
    ∃ r ∈ addressMap p, r.window = w ∧ r.base ≤ a ∧ a < r.base + r.cells * r.width := by
  have row (r : MapWindow) (hr : r ∈ addressMap p) (hw : some r.window = some w) (hlo : r.base ≤ a)
      (hhi : a < r.base + r.cells * r.width) :
      ∃ r ∈ addressMap p, r.window = w ∧ r.base ≤ a ∧ a < r.base + r.cells * r.width :=
    ⟨r, hr, Option.some.inj hw, hlo, hhi⟩
  unfold windowAt at h
  split_ifs at h with hcsr ht1 ht2 ht3 hdec hbs hsmp hivl
  · exact row ⟨.csr, 0x0, 0x400, 4⟩ (by simp [addressMap]) h (Nat.zero_le a) (by simp only; omega)
  · exact row ⟨.trk .t1, 0x10000, p.trackMax, 1⟩ (by simp [addressMap]) h ht1.1 (by simp only; omega)
  · exact row ⟨.trk .t2, 0x10100, p.trackMax, 1⟩ (by simp [addressMap]) h ht2.1 (by simp only; omega)
  · exact row ⟨.trk .t3, 0x10200, p.trackMax, 1⟩ (by simp [addressMap]) h ht3.1 (by simp only; omega)
  · exact row ⟨.dec, 0x100000, p.decMax, 1⟩ (by simp [addressMap]) h hdec.1 (by simp only; omega)
  · exact row ⟨.bs, 0x200000, p.bsMax, 1⟩ (by simp [addressMap]) h hbs.1 (by simp only; omega)
  · exact row ⟨.smp, 0x1000000, p.nsMax, 2⟩ (by simp [addressMap]) h hsmp.1 (by simp only; omega)
  · exact row ⟨.ivl, 0x2000000, p.niMax, 4⟩ (by simp [addressMap]) h hivl.1 (by simp only; omega)

/-- A row's width in bytes is that of its window's accesses. -/
theorem bytes_width_of_mem {p : Params} {r : MapWindow} (hr : r ∈ addressMap p) : r.window.width.bytes = r.width := by
  simp only [addressMap, List.mem_cons, List.not_mem_nil, or_false] at hr
  rcases hr with rfl | rfl | rfl | rfl | rfl | rfl | rfl | rfl
  all_goals rfl

/-- An access that reaches a window is taken by a row of the address map (20_memory R92, R93). -/
theorem exists_row_of_accessedWindow {p : Params} {a : Word} {n : Width} {w : Window}
    (h : accessedWindow p a n = some w) : ∃ r ∈ addressMap p, r.window = w ∧ r.takes a.toNat n := by
  unfold accessedWindow at h
  split at h
  · rename_i w' hw'
    split_ifs at h with hok
    obtain ⟨hwidth, halign⟩ := hok
    obtain ⟨r, hr, rfl, hlo, hhi⟩ := exists_row_of_windowAt hw'
    have hn : n.bytes = r.width := by rw [← bytes_width_of_mem hr, hwidth]
    exact ⟨r, hr, Option.some.inj h, hlo, hhi, hn, hn ▸ halign⟩
  · cases h

/-- Settles O15: an address in a window is in the window's row, and the rows do not overlap. -/
theorem accessesFollowTheAddressMap : Obligations.AccessesFollowTheAddressMap := by
  unfold Obligations.AccessesFollowTheAddressMap
  intro p a n w hp
  constructor
  · exact exists_row_of_accessedWindow
  · rintro ⟨r, hr, rfl, ht⟩
    exact accessedWindow_of_takes hp hr ht

section BusErrors
variable {s : State} {a : Word} {n : Width}

/-- An access that no row takes reaches no window (20_memory R94). -/
theorem accessedWindow_eq_none {p : Params} (h : ∀ r ∈ addressMap p, ¬ r.takes a.toNat n) :
    accessedWindow p a n = none := by
  refine Option.eq_none_iff_forall_ne_some.2 fun w hw => ?_
  obtain ⟨r, hr, -, ht⟩ := exists_row_of_accessedWindow hw
  exact h r hr ht

theorem memRead_busError (h : accessedWindow s.params a n = none) : s.memRead a n = s.reply 0 true := by
  simp only [State.memRead, h]

theorem memWrite_busError (h : accessedWindow s.params a n = none) (v : Word) :
    s.memWrite a n v = s.reply 0 true := by
  simp only [State.memWrite, h]
end BusErrors

/-- Settles O16: an access that no row takes reaches no window, and is only replied to. -/
theorem busErrorsChangeNothing : Obligations.BusErrorsChangeNothing := by
  unfold Obligations.BusErrorsChangeNothing
  intro s a n h
  have hnone := accessedWindow_eq_none h
  exact ⟨memRead_busError hnone, memWrite_busError hnone⟩

/-! ### Reads and writes of a cell -/

section Accesses
variable {s : State} {a : Word} {n : Width} {w : Window}

/-- A register reads live, BUSY or not; so does a memory cell while not BUSY (20_memory R99, R101). -/
theorem memRead_cell (h : accessedWindow s.params a n = some w) (hlive : w = .csr ∨ s.csr.status.busy = false) :
    s.memRead a n = s.reply (s.readCell w a.toNat) false := by
  have hdrawn : ¬ (w ≠ .csr ∧ s.csr.status.busy = true) := by
    rcases hlive with hw | hbusy
    · exact fun hc => hc.1 hw
    · exact fun hc => Bool.false_ne_true (hbusy ▸ hc.2)
  simp only [State.memRead, h]
  rw [if_neg hdrawn]

/-- A memory window read while BUSY answers a draw and sets HAZ (20_memory R101). -/
theorem memRead_draw (h : accessedWindow s.params a n = some w) (hw : w ≠ .csr) (hbusy : s.csr.status.busy = true) :
    s.memRead a n =
      { s.setHaz.reply (drawOfWidth n (Config.busyRead s.draws)) false with draws := s.draws + 1 } := by
  simp only [State.memRead, h]
  rw [if_pos ⟨hw, hbusy⟩]

theorem memWrite_cell (h : accessedWindow s.params a n = some w) (hbusy : s.csr.status.busy = false) (v : Word) :
    s.memWrite a n v = (s.writeCell w a.toNat v).reply 0 false := by
  simp [State.memWrite, h, hbusy]
end Accesses

/-- Settles O20: the access reaches the row's window, and only a memory window is withheld while BUSY. -/
theorem readsWhileBusy : Obligations.ReadsWhileBusy := by
  unfold Obligations.ReadsWhileBusy
  intro s r a n hp hbusy hr ht
  have hwin := accessedWindow_of_takes hp hr ht
  split
  · rename_i hcsr
    rw [hcsr] at hwin
    exact memRead_cell hwin (.inl rfl)
  · exact memRead_draw hwin ‹_› hbusy

/-- The bytes of a memory cell that a host writes: the word truncated to the cell, least significant first (20_memory
R95, R98; `writeCell_eq_writeBytes`). A register is no memory cell. -/
def Window.cellBytes (p : Params) (w : Window) (v : Word) : List Byte :=
  match w with
  | .csr => []
  | .trk _ | .dec => [v.setWidth 8]
  | .bs => [byteOfBit (v.getLsbD 0)]
  | .smp => bytesOfHalf (sampleCell p.sampleW (v.setWidth 16))
  | .ivl => bytesOfWord v

section Cells
variable {s : State} {r : MapWindow} {a : Nat} {n : Width} {w : Window}

theorem writeCell_eq_writeBytes (hw : w ≠ .csr) (v : Word) :
    s.writeCell w a v = s.writeBytes a (w.cellBytes s.params v) := by
  cases w with
  | csr => exact absurd rfl hw
  | trk | dec | bs | smp | ivl => rfl

theorem cellBytes_length {p q : Params} (hr : r ∈ addressMap p) (hw : r.window ≠ .csr) (v : Word) :
    (r.window.cellBytes q v).length = r.width := by
  simp only [addressMap, List.mem_cons, List.not_mem_nil, or_false] at hr
  rcases hr with rfl | rfl | rfl | rfl | rfl | rfl | rfl | rfl
  · exact absurd rfl hw
  all_goals rfl

/-- The host reads the cell, zero-extended (20_memory R95). -/
theorem readCell_eq_cellAt {p : Params} (hr : r ∈ addressMap p) :
    s.readCell r.window a = BitVec.ofNat 32 (s.cellAt r a) := by
  have bit (b : Bool) : (byteOfBit b).setWidth 32 = BitVec.ofNat 32 b.toNat := by cases b <;> rfl
  simp only [addressMap, List.mem_cons, List.not_mem_nil, or_false] at hr
  rcases hr with rfl | rfl | rfl | rfl | rfl | rfl | rfl | rfl
  all_goals simp [State.readCell, State.cellAt, bit, Track.base]

/-- What a cell reads as depends on the parameters and the memory alone. -/
theorem readCell_reply (hw : w ≠ .csr) (data : Word) (busError : Bool) :
    (s.reply data busError).readCell w a = s.readCell w a := by
  cases w with
  | csr => exact absurd rfl hw
  | trk | dec | bs | smp | ivl => rfl

/-! What a cell reads as once its bytes are written. -/

theorem readByte_writeBytes_singleton (s : State) (a : Nat) (b : Byte) : (s.writeBytes a [b]).readByte a = b :=
  readByte_writeBytes_getElem? s a 0 [b] b rfl

theorem halfOfBytes_writeBytes (s : State) (a : Nat) (c : BitVec 16) :
    halfOfBytes ((s.writeBytes a (bytesOfHalf c)).readByte a) ((s.writeBytes a (bytesOfHalf c)).readByte (a + 1)) =
      c := by
  have h0 : (s.writeBytes a (bytesOfHalf c)).readByte a = _ := readByte_writeBytes_getElem? s a 0 _ _ rfl
  rw [h0, readByte_writeBytes_getElem? s a 1 _ _ rfl]
  exact halfOfBytes_bytes c

theorem wordOfBytes_writeBytes (s : State) (a : Nat) (c : Word) :
    wordOfBytes ((s.writeBytes a (bytesOfWord c)).readByte a) ((s.writeBytes a (bytesOfWord c)).readByte (a + 1))
      ((s.writeBytes a (bytesOfWord c)).readByte (a + 2)) ((s.writeBytes a (bytesOfWord c)).readByte (a + 3)) = c := by
  have h0 : (s.writeBytes a (bytesOfWord c)).readByte a = _ := readByte_writeBytes_getElem? s a 0 _ _ rfl
  rw [h0, readByte_writeBytes_getElem? s a 1 _ _ rfl, readByte_writeBytes_getElem? s a 2 _ _ rfl,
    readByte_writeBytes_getElem? s a 3 _ _ rfl]
  exact wordOfBytes_bytes c

theorem trkAddr_sub_base {t : Track} (h : t.base ≤ a) : trkAddr t (a - t.base) = a := Nat.add_sub_of_le h

theorem decAddr_sub_base (h : 0x100000 ≤ a) : decAddr (a - 0x100000) = a := Nat.add_sub_of_le h

theorem bsAddr_sub_base (h : 0x200000 ≤ a) : bsAddr (a - 0x200000) = a := Nat.add_sub_of_le h

/-- An aligned address is its cell's (20_memory R92, R93). -/
theorem smpAddr_div_two (h : 0x1000000 ≤ a) (halign : a % 2 = 0) : smpAddr ((a - 0x1000000) / 2) = a := by
  unfold smpAddr
  omega

theorem ivlAddr_div_four (h : 0x2000000 ≤ a) (halign : a % 4 = 0) : ivlAddr ((a - 0x2000000) / 4) = a := by
  unfold ivlAddr
  omega

/-- The low bits of a word, as a mask. -/
theorem setWidth_setWidth_eq_and {k : Nat} (v : Word) :
    (v.setWidth k).setWidth 32 = v &&& BitVec.ofNat 32 (2 ^ k - 1) := by
  rw [setWidth_merge v (0#k)]
  simp

/-- A cell that holds a sample answers the `P_SAMPLE_W` low bits of the word written (20_memory R91). -/
theorem sampleCell_setWidth {k : Nat} (hk : k ≤ 16) (v : Word) :
    (sampleCell k (v.setWidth 16)).setWidth 32 = BitVec.ofNat 32 (v.toNat % 2 ^ k) := by
  rw [← BitVec.ofNat_toNat, sampleCell_toNat, BitVec.toNat_setWidth,
    Nat.mod_mod_of_dvd _ (Nat.pow_dvd_pow 2 hk)]

theorem Params.sampleW_le {p : Params} (h : p.valid = true) : p.sampleW ≤ 16 := by
  simp only [Params.valid, Bool.and_eq_true, decide_eq_true_eq] at h
  tauto

theorem readCell_writeBytes_trk {t : Track} (h : t.base ≤ a) (b : Byte) :
    (s.writeBytes a [b]).readCell (.trk t) a = b.setWidth 32 := by
  simp only [State.readCell, State.trk]
  rw [trkAddr_sub_base h, readByte_writeBytes_singleton]

theorem readCell_writeBytes_dec (h : 0x100000 ≤ a) (b : Byte) :
    (s.writeBytes a [b]).readCell .dec a = b.setWidth 32 := by
  simp only [State.readCell, State.dec]
  rw [decAddr_sub_base h, readByte_writeBytes_singleton]

theorem readCell_writeBytes_bs (h : 0x200000 ≤ a) (b : Bool) :
    (s.writeBytes a [byteOfBit b]).readCell .bs a = (BitVec.ofBool b).setWidth 32 := by
  simp only [State.readCell, State.bs]
  rw [bsAddr_sub_base h, readByte_writeBytes_singleton]
  cases b
  all_goals rfl

theorem readCell_writeBytes_smp (h : 0x1000000 ≤ a) (halign : a % 2 = 0) (c : BitVec 16) :
    (s.writeBytes a (bytesOfHalf c)).readCell .smp a = (sampleCell s.params.sampleW c).setWidth 32 := by
  simp only [State.readCell, State.smp, writeBytes_params]
  rw [smpAddr_div_two h halign, halfOfBytes_writeBytes]

theorem readCell_writeBytes_ivl (h : 0x2000000 ≤ a) (halign : a % 4 = 0) (c : Word) :
    (s.writeBytes a (bytesOfWord c)).readCell .ivl a = c := by
  simp only [State.readCell, State.ivl]
  rw [ivlAddr_div_four h halign, wordOfBytes_writeBytes]

/-- A host write to a cell is what the next read of it answers, truncated to the cell (20_memory R95, R98). -/
theorem readCell_writeBytes_cellBytes {p : Params} (hp : s.params.valid = true) (hr : r ∈ addressMap p)
    (hw : r.window ≠ .csr) (ht : r.takes a n) (v : Word) :
    (s.writeBytes a (r.window.cellBytes s.params v)).readCell r.window a = r.window.truncate s.params v := by
  obtain ⟨hlo, -, -, halign⟩ := ht
  have hbyte : (v.setWidth 8).setWidth 32 = v &&& 0xFF#32 := setWidth_setWidth_eq_and v
  have hbit : (BitVec.ofBool (v.getLsbD 0)).setWidth 32 = v &&& 1#32 := by
    rw [← BitVec.setWidth_one]
    exact setWidth_setWidth_eq_and v
  simp only [addressMap, List.mem_cons, List.not_mem_nil, or_false] at hr
  rcases hr with rfl | rfl | rfl | rfl | rfl | rfl | rfl | rfl
  · exact absurd rfl hw
  · exact (readCell_writeBytes_trk (t := .t1) hlo _).trans hbyte
  · exact (readCell_writeBytes_trk (t := .t2) hlo _).trans hbyte
  · exact (readCell_writeBytes_trk (t := .t3) hlo _).trans hbyte
  · exact (readCell_writeBytes_dec hlo _).trans hbyte
  · exact (readCell_writeBytes_bs hlo _).trans hbit
  · refine (readCell_writeBytes_smp hlo halign _).trans ?_
    rw [sampleCell_idem]
    exact sampleCell_setWidth (Params.sampleW_le hp) v
  · exact readCell_writeBytes_ivl hlo halign v

end Cells

/-- Settles O17: the access reaches the cell's window, the write stores the cell's bytes and nothing else, and the bytes
read back are the word truncated to the cell. -/
theorem memoryWriteThenReadReturnsTheCell : Obligations.MemoryWriteThenReadReturnsTheCell := by
  unfold Obligations.MemoryWriteThenReadReturnsTheCell
  intro s r a n v hp hbusy hr hw ht
  have hwin := accessedWindow_of_takes hp hr ht
  have hread (t : State) (hparams : t.params = s.params) (hcsr : t.csr = s.csr) :
      t.hostAccess (.read a n) = t.reply (t.readCell r.window a.toNat) false :=
    memRead_cell (hparams ▸ hwin) (.inr (hcsr ▸ hbusy))
  have hwrite : s.hostAccess (.write a n v) =
      (s.writeBytes a.toNat (r.window.cellBytes s.params v)).reply 0 false := by
    rw [← writeCell_eq_writeBytes hw]
    exact memWrite_cell hwin hbusy v
  rw [hwrite]
  refine ⟨?_, rfl, ?_, fun b hb => ?_, rfl, rfl, rfl, rfl, rfl, rfl, rfl⟩
  · rw [hread s rfl rfl, readCell_eq_cellAt hr]
    rfl
  · rw [hread ((s.writeBytes a.toNat (r.window.cellBytes s.params v)).reply 0 false) rfl rfl, readCell_reply hw,
      readCell_writeBytes_cellBytes hp hr hw ht]
    rfl
  · exact readByte_writeBytes_outside s _ b _ (cellBytes_length (q := s.params) hr hw v ▸ hb)

end Sys2Proof.Machine

/-! ### The transport streams -/

namespace Sys2Proof.Machine

/-- The stream toward the block and the bytes sent (20_memory R109). -/
def State.streams (s : State) : List Byte × List Byte := (s.rx, s.sent)

theorem streams_eq_iff {s t : State} : t.streams = s.streams ↔ t.rx = s.rx ∧ t.sent = s.sent := Prod.mk_inj

/-- Registers, sequencer, memory and replies are apart from the streams. -/
theorem streams_keptByUpdates (x : List Byte × List Byte) : KeptByUpdates fun s => s.streams = x where
  csr _ h := h
  seq _ h := h
  writeBytes _ _ h := h
  answer _ _ h := h

section StreamsOfUpdates
variable (s : State) (b : Byte) (t : Track) (e : ErrCode)

@[simp] theorem moveTo_streams (p : Point) : (s.moveTo p).streams = s.streams := by simp [State.streams]
@[simp] theorem setLocals_streams (l : Locals) : (s.setLocals l).streams = s.streams := by simp [State.streams]
@[simp] theorem appendReply_streams : (s.appendReply b).streams = s.streams := by simp [State.streams]
@[simp] theorem completeWith_streams : (s.completeWith e).streams = s.streams := rfl
@[simp] theorem setAttempts_streams (a : Nat) : (s.setAttempts a).streams = s.streams := rfl
@[simp] theorem pop_streams : s.pop.streams = s.streams := rfl

@[simp] theorem storeTrackByte_streams : (s.storeTrackByte t b).streams = s.streams := by
  rcases storeTrackByte_cases s t b with ⟨-, he⟩ | ⟨-, he⟩
  all_goals
    rw [he]
    rfl

@[simp] theorem hostAccess_streams (a : Access) : (s.hostAccess a).streams = s.streams :=
  (streams_keptByUpdates s.streams).hostAccess a rfl
end StreamsOfUpdates

/-- The piece of pseudocode runs without touching the streams: it neither sends nor receives (43_serial_protocol). What
sends and receives is the step itself (`transactionStep_streams`). -/
def Silent (f : State → State) : Prop := ∀ s, (f s).streams = s.streams

/-! The shared pieces. -/

theorem silent_id : Silent id := fun _ => rfl

theorem silent_completeWith (e : ErrCode) : Silent fun s => s.completeWith e := fun _ => rfl

theorem silent_moveTo (p : Point) : Silent fun s => s.moveTo p := fun s => moveTo_streams s p

theorem silent_sendCmd (code : Byte) : Silent fun s => s.sendCmd code := fun s => moveTo_streams s _

theorem silent_clearAndSendCmd (code : Byte) : Silent fun s => s.clearReply.sendCmd code :=
  fun s => silent_sendCmd code s.clearReply

theorem silent_settleWait {after : State → State} (h : Silent after) : Silent fun s => s.settleWait after := by
  intro s
  simp only [State.settleWait]
  split
  · exact h s
  · exact moveTo_streams s _

theorem receiveReply_streams {after : State → State} (h : Silent after) (s : State) (n : Nat) :
    (s.receiveReply n after).streams = s.streams := by
  unfold State.receiveReply
  split
  · exact h s
  · exact moveTo_streams s _

theorem receiveAndComplete_streams (s : State) (n : Nat) :
    (s.receiveReply n fun s => s.completeWith .none).streams = s.streams :=
  receiveReply_streams (silent_completeWith .none) s n

theorem silent_replyReceived {finish : Byte → State → State} (h : ∀ b, Silent (finish b)) (p : Point) (b : Byte) :
    Silent (replyReceived finish p b) := by
  intro s
  cases p with
  | reply left =>
    simp only [replyReceived]
    split
    · rw [h b, appendReply_streams]
    · rw [moveTo_streams, appendReply_streams]
  | _ => rfl

theorem silent_checkStatusAndComplete (b : Byte) : Silent (checkStatusAndComplete b) := fun _ => rfl

/-! The reads (43_serial_protocol R274 to R286, 44_retry). -/

theorem silent_readAttempt (code : Byte) : Silent (readAttempt code) := fun s => silent_sendCmd code s.clearForRead

theorem silent_retryAttempt : Silent retryAttempt := by
  intro s
  simp only [retryAttempt, State.sendCmd, moveTo_streams, setAttempts_streams, setLocals_streams]

theorem silent_readBegins (rty : Bool) (code : Byte) : Silent (readBegins rty code) := by
  intro s
  unfold readBegins
  split
  · rw [silent_retryAttempt, setLocals_streams]
  · exact silent_readAttempt code s

theorem silent_endAttempt (rty : Bool) (e : ErrCode) : Silent (endAttempt rty e) := by
  intro s
  simp only [endAttempt]
  split_ifs
  · rfl
  · exact silent_retryAttempt s
  · rfl

theorem silent_startScan (rty : Bool) : Silent (startScan rty) := by
  intro s
  unfold startScan
  split
  · exact silent_endAttempt rty _ s
  · exact moveTo_streams s _

theorem silent_readAfterFrame (rty : Bool) (code : Byte) (w : FrameWord) : Silent (readAfterFrame rty code w) := by
  intro s
  unfold readAfterFrame
  split
  · exact silent_settleWait (silent_readAttempt code) s
  · exact silent_startScan rty s

theorem silent_nextTrack (rty : Bool) (t : Track) (carry : Bool) : Silent (nextTrack rty t carry) := by
  intro s
  unfold nextTrack
  split
  · split
    · exact moveTo_streams s _
    · exact moveTo_streams s _
  · exact receiveReply_streams (silent_endAttempt rty .none) s _

theorem silent_readFinish (rty : Bool) (b : Byte) : Silent (readFinish rty b) := by
  intro s
  simp only [readFinish]
  split_ifs
  all_goals exact silent_endAttempt rty _ (s.setLaststat b)

theorem silent_readReceived (rty : Bool) (p : Point) (b : Byte) : Silent (readReceived rty p b) := by
  intro s
  cases p with
  | scan examined =>
    simp only [readReceived]
    split_ifs
    · exact moveTo_streams s _
    · exact moveTo_streams s _
    · exact silent_endAttempt rty _ s
  | headerEsc t | headerNum t =>
    simp only [readReceived]
    split_ifs
    · exact moveTo_streams s _
    · exact silent_nextTrack rty t _ (s.trackError t)
  | trackData t =>
    simp only [readReceived]
    split_ifs
    · exact silent_nextTrack rty t _ s
    · exact silent_nextTrack rty t _ (s.trackError t)
    · rw [moveTo_streams, storeTrackByte_streams]
  | reply left => exact silent_replyReceived (silent_readFinish rty) (.reply left) b s
  | _ => rfl

/-! The transactions without a retry (43_serial_protocol R272, R273, R290 to R300). -/

theorem silent_commtestReceived (p : Point) (b : Byte) : Silent (commtestReceived p b) := by
  intro s
  cases p with
  | commtest =>
    simp only [commtestReceived]
    split
    · rfl
    · exact moveTo_streams s _
  | _ => rfl

theorem silent_writeTrackFrom (t : Track) (j : Nat) : Silent (writeTrackFrom t j) := by
  intro s
  unfold writeTrackFrom writeNextTrack
  split
  · exact moveTo_streams s _
  · split
    all_goals exact moveTo_streams s _

theorem silent_writeSent (raw : Bool) (p : Point) : Silent (writeSent raw p) := by
  intro s
  cases p with
  | writeStart | writeEsc _ | writeEnd => exact moveTo_streams s _
  | writeNum t =>
    simp only [writeSent]
    split
    · exact moveTo_streams s _
    · exact silent_writeTrackFrom t 0 s
  | writeLen t => exact silent_writeTrackFrom t 0 s
  | writeData t j => exact silent_writeTrackFrom t (j + 1) s
  | writeFs => exact receiveAndComplete_streams s _
  | _ => rfl

theorem silent_eraseSent (p : Point) : Silent (eraseSent p) := by
  intro s
  cases p with
  | eraseMask mask => exact receiveAndComplete_streams s _
  | _ => rfl

theorem silent_modelFinish (b : Byte) : Silent (modelFinish b) := by
  intro s
  unfold modelFinish
  split_ifs
  all_goals rfl

theorem silent_escapeFinish (b : Byte) : Silent (escapeFinish b) := by
  intro s
  unfold escapeFinish
  split
  all_goals rfl

theorem silent_xcmdBegins (code : Byte) : Silent (xcmdBegins code) := by
  intro s
  unfold xcmdBegins
  split
  · exact silent_clearAndSendCmd code s
  · rfl

theorem silent_xcmdPayloadFrom (k : Nat) : Silent (xcmdPayloadFrom k) := by
  intro s
  unfold xcmdPayloadFrom
  split
  · exact moveTo_streams s _
  · exact receiveAndComplete_streams s _

theorem silent_xcmdSent (p : Point) : Silent (xcmdSent p) := by
  intro s
  cases p with
  | payload k => exact silent_xcmdPayloadFrom (k + 1) s
  | _ => rfl

theorem silent_xcmdFinish (b : Byte) : Silent (xcmdFinish b) := by
  intro s
  unfold xcmdFinish
  split
  all_goals rfl

theorem silent_continueAfterFrame (i : Instr) (w : FrameWord) : Silent (continueAfterFrame i w) := by
  intro s
  cases i with
  | devReset => exact silent_settleWait (silent_completeWith .none) s
  | devReadiso rty | devReadraw rty => exact silent_readAfterFrame rty _ w s
  | devCommtest | devWriteiso | devWriteraw | devErase => exact moveTo_streams s _
  | devModel | devFirmware | devLzquery => exact receiveAndComplete_streams s _
  | devXcmd => exact silent_xcmdPayloadFrom 0 s
  | _ => rfl

theorem silent_resumeTransaction (cmd : Word) (w : FrameWord) : Silent (resumeTransaction cmd w) := by
  intro s
  unfold resumeTransaction
  split
  · exact silent_continueAfterFrame _ w s
  · rfl

/-! A whole step. -/

/-- The streams after the event of this step at position `p` of a transaction: a `Send` that is taken joins its byte to
the end of the bytes sent, a `Recv` that is served takes the first byte of the stream (60_exceptions R381). -/
def State.exchangedAt (s : State) (p : Point) : List Byte × List Byte :=
  if p.waiting = .send ∧ s.event = some .take then (s.rx, s.sent ++ [s.offered p])
  else if p.waiting = .recv ∧ s.event = some .deliver then (s.rx.tail, s.sent)
  else s.streams

section Exchange
variable {s : State} {p : Point}

theorem exchangedAt_take (hw : p.waiting = .send) (he : s.event = some .take) :
    s.exchangedAt p = (s.rx, s.sent ++ [s.offered p]) := if_pos ⟨hw, he⟩

theorem exchangedAt_deliver (hw : p.waiting = .recv) (he : s.event = some .deliver) :
    s.exchangedAt p = (s.rx.tail, s.sent) := by
  simp [State.exchangedAt, hw, he]

/-- Without the event the position waits for, nothing is exchanged (60_exceptions R382, R383). -/
theorem exchangedAt_of_no_exchange (hsend : p.waiting = .send → s.event ≠ some .take)
    (hrecv : p.waiting = .recv → s.event ≠ some .deliver) : s.exchangedAt p = s.streams := by
  unfold State.exchangedAt
  rw [if_neg (fun h => hsend h.1 h.2), if_neg (fun h => hrecv h.1 h.2)]

theorem frameStep_streams {w : FrameWord} {b : FrameByte} {after : State → State} (h : Silent after) (s : State) :
    (frameStep w b after s).streams = s.exchangedAt (.frame w b) := by
  unfold frameStep
  split
  · rename_i he
    rw [exchangedAt_take rfl he]
    cases b with
    | esc => exact moveTo_streams _ _
    | code => exact h _
  · rename_i he
    rw [completeWith_streams, exchangedAt_of_no_exchange (by simp [he]) (by simp [Point.waiting])]
  · rename_i htake _
    exact (exchangedAt_of_no_exchange (fun _ => htake) (by simp [Point.waiting])).symm

/-- A transaction's step exchanges what its position waits for, whatever its pseudocode then goes on with. -/
theorem transactionStep_streams {begins : State → State} {afterFrame : FrameWord → State → State}
    {sent : Point → State → State} {received : Point → Byte → State → State} {settled : State → State} {cmd : Word}
    {l : Locals} (hbegins : Silent begins) (hafterFrame : ∀ w, Silent (afterFrame w)) (hsent : ∀ p, Silent (sent p))
    (hreceived : ∀ p b, Silent (received p b)) (hsettled : Silent settled) (hseq : s.seq = .txn cmd p l) :
    (transactionStep begins afterFrame sent received settled s).streams = s.exchangedAt p := by
  unfold transactionStep
  rw [hseq]
  simp only
  split
  · exact frameStep_streams (hafterFrame _) s
  · split
    · rename_i hw he
      rw [hbegins, exchangedAt_of_no_exchange (by simp [hw]) (by simp [hw])]
    · rename_i hw he
      rw [hbegins, exchangedAt_of_no_exchange (by simp [hw]) (by simp [hw])]
    · rename_i hw he
      rw [hsent, exchangedAt_take hw he]
      rfl
    · rename_i hw he
      rw [completeWith_streams, exchangedAt_of_no_exchange (by simp [he]) (by simp [hw])]
    · rename_i hw he
      rw [exchangedAt_deliver hw he]
      split
      · rename_i hrx
        simp [State.streams, hrx]
      · rename_i hrx
        rw [hreceived, hrx]
        rfl
    · rename_i hw he
      rw [completeWith_streams, exchangedAt_of_no_exchange (by simp [hw]) (by simp [he])]
    · rename_i hw he
      rw [exchangedAt_of_no_exchange (by simp [hw]) (by simp [hw])]
      split
      · exact hsettled s
      · exact moveTo_streams s _
    · rename_i htake _ hdeliver _ _
      exact (exchangedAt_of_no_exchange htake hdeliver).symm

/-- The step of a transaction that has begun. -/
theorem exec_transaction_streams {i : Instr} {t : State} {cmd : Word} {l : Locals} (hi : isTransaction i = true)
    (hseq : s.seq = .txn cmd p l) (ht : exec i s = .next t) : t.streams = s.exchangedAt p := by
  cases i with
  | devReset =>
    obtain rfl := Host.Outcome.next.inj ht
    rw [inTransaction_of_txn s p l hseq]
    exact transactionStep_streams (silent_sendCmd _) (fun _ => silent_settleWait (silent_completeWith _))
      (fun _ => silent_id) (fun _ _ => silent_id) (silent_completeWith _) hseq
  | devCommtest =>
    obtain rfl := Host.Outcome.next.inj ht
    rw [inTransaction_of_txn s p l hseq]
    exact transactionStep_streams (silent_sendCmd _) (fun _ => silent_moveTo _) (fun _ => silent_id)
      silent_commtestReceived silent_id hseq
  | devReadiso rty | devReadraw rty =>
    obtain rfl := Host.Outcome.next.inj ht
    rw [inTransaction_of_txn s p l hseq]
    exact transactionStep_streams (silent_readBegins rty _) (silent_readAfterFrame rty _) (fun _ => silent_id)
      (silent_readReceived rty) (silent_readAttempt _) hseq
  | devWriteiso | devWriteraw =>
    obtain rfl := Host.Outcome.next.inj ht
    rw [inTransaction_of_txn s p l hseq]
    exact transactionStep_streams (silent_clearAndSendCmd _) (fun _ => silent_moveTo _) (silent_writeSent _)
      (silent_replyReceived silent_checkStatusAndComplete) silent_id hseq
  | devErase mask =>
    obtain rfl := Host.Outcome.next.inj ht
    rw [inTransaction_of_txn s p l hseq]
    exact transactionStep_streams (silent_clearAndSendCmd _) (fun _ => silent_moveTo _) silent_eraseSent
      (silent_replyReceived silent_checkStatusAndComplete) silent_id hseq
  | devModel =>
    obtain rfl := Host.Outcome.next.inj ht
    rw [inTransaction_of_txn s p l hseq]
    exact transactionStep_streams (silent_clearAndSendCmd _) (fun _ s => receiveAndComplete_streams s _)
      (fun _ => silent_id) (silent_replyReceived silent_modelFinish) silent_id hseq
  | devFirmware | devLzquery =>
    obtain rfl := Host.Outcome.next.inj ht
    rw [inTransaction_of_txn s p l hseq]
    exact transactionStep_streams (silent_clearAndSendCmd _) (fun _ s => receiveAndComplete_streams s _)
      (fun _ => silent_id) (silent_replyReceived silent_escapeFinish) silent_id hseq
  | devXcmd code =>
    obtain rfl := Host.Outcome.next.inj ht
    rw [inTransaction_of_txn s p l hseq]
    exact transactionStep_streams (silent_xcmdBegins code) (fun _ => silent_xcmdPayloadFrom 0) silent_xcmdSent
      (silent_replyReceived silent_xcmdFinish) silent_id hseq
  | _ => cases hi

/-- The emission of a frame exchanges a byte of the frame on the port, or does nothing on a port that holds another. -/
theorem emitFrame_streams (code : Byte) (s : State) :
    (emitFrame code s).streams = s.streams ∨
      ∃ cmd p l, s.seq = .txn cmd p l ∧ (emitFrame code s).streams = s.exchangedAt p := by
  unfold emitFrame
  split
  · rename_i cmd w b l hseq
    split
    · exact .inr ⟨cmd, _, l, hseq, frameStep_streams (silent_resumeTransaction cmd w) s⟩
    · exact .inl rfl
  all_goals exact .inl rfl

/-- Every instruction's step leaves the streams as they are, or makes the exchange the sequencer waits for. -/
theorem exec_streams {i : Instr} {t : State} (ht : exec i s = .next t) :
    t.streams = s.streams ∨ ∃ cmd p l, s.seq = .txn cmd p l ∧ t.streams = s.exchangedAt p := by
  cases hi : isTransaction i with
  | false =>
    rcases (streams_keptByUpdates s.streams).exec_of_not_transaction hi rfl ht with h | ⟨code, rfl⟩
    · exact .inl h
    · exact emitFrame_streams code s
  | true =>
    obtain ⟨cmd, he⟩ := exec_eq_exec_inTransaction hi s
    rw [he] at ht
    rcases inTransaction_seq s cmd with hs | hs
    · obtain ⟨c, p, l, hseq⟩ := exists_inTransaction_seq s cmd
      rw [hs] at ht hseq
      exact .inr ⟨c, p, l, hseq, exec_transaction_streams hi hseq ht⟩
    · rw [hs] at ht
      refine .inl ((exec_transaction_streams hi rfl ht).trans ?_)
      exact exchangedAt_of_no_exchange (by simp [Point.waiting]) (by simp [Point.waiting])

theorem blockStep_streams {t : State} (ht : blockStep s = .next t) :
    t.streams = s.streams ∨ ∃ cmd p l, s.seq = .txn cmd p l ∧ t.streams = s.exchangedAt p := by
  unfold blockStep at ht
  split at ht
  · exact .inl (congrArg State.streams (Host.Outcome.next.inj ht).symm)
  · split at ht
    · exact exec_streams ht
    · obtain rfl := Host.Outcome.next.inj ht
      exact .inl rfl

/-- In a consistent transaction the exchange is always made: the block executes the transaction, or the frame it is
in. -/
theorem blockStep_streams_of_consistent {t : State} {cmd : Word} {l : Locals} (h : s.Consistent)
    (hseq : s.seq = .txn cmd p l) (ht : blockStep s = .next t) : t.streams = s.exchangedAt p := by
  have haccepted := h.accepted
  simp only [State.acceptedCommand, hseq] at haccepted
  obtain ⟨-, -, hname⟩ := haccepted
  unfold blockStep at ht
  by_cases hp : ∃ w b j, p = .frame w b ∧ decodeFrame w = .ok j
  · obtain ⟨w, b, j, rfl, hj⟩ := hp
    simp only [fetched_frame hseq hj, decode, hj] at ht
    obtain ⟨hw, -⟩ := decodeFrame_ok hj
    have hheld : s.seq = .txn cmd (.frame (commandFrame w.second) b) l := hw ▸ hseq
    rw [emitFrame_of_exec_frame hj ht, emitFrame_of_held hheld, ← hw]
    exact frameStep_streams (silent_resumeTransaction cmd w) s
  · obtain ⟨i, hdec, hi⟩ := decodeCommand_of_namesTransaction hname
    simp only [fetched_command hseq fun w b j hw hj => hp ⟨w, b, j, hw, hj⟩, decode, hdec] at ht
    exact exec_transaction_streams hi hseq ht

/-- A step that is the transport's at a consistent transaction makes the exchange. -/
theorem step_streams_of_consistent {t : State} {cmd : Word} {l : Locals} {a : Action} (h : s.Consistent)
    (hseq : s.seq = .txn cmd p l) (he : s.event = some a) (ha : a.ofTransaction = true) (ht : step s = .next t) :
    t.streams = s.exchangedAt p := by
  have hmoves : s.blockMoves = true := by
    refine blockMoves_of_txn hseq (fun x hx => ?_) (fun x hx => ?_)
    all_goals
      obtain rfl := Option.some.inj (he.symm.trans hx)
      cases ha
  rw [step_of_blockMoves hmoves] at ht
  obtain ⟨u, hu, rfl⟩ := popNext_next ht
  rw [pop_streams]
  exact blockStep_streams_of_consistent h hseq hu

/-- Everything a step can do to the streams: nothing, add the device's byte, or make the exchange the sequencer waits
for. -/
theorem step_streams_cases {t : State} (ht : step s = .next t) :
    t.streams = s.streams ∨ (∃ b, s.event = some (.device b) ∧ t.streams = (s.rx ++ [b], s.sent)) ∨
      ∃ cmd p l, s.seq = .txn cmd p l ∧ t.streams = s.exchangedAt p := by
  rcases step_cases ht with ⟨a, -, rfl⟩ | ⟨b, he, rfl⟩ | ⟨-, u, hu, rfl⟩ | ⟨-, rfl⟩
  · exact .inl (hostAccess_streams s a)
  · exact .inr (.inl ⟨b, he, rfl⟩)
  · exact (blockStep_streams hu).imp_right .inr
  · exact .inl rfl

/-- The exchange, case by case: a byte is sent, a byte is received, or nothing (60_exceptions R381). -/
theorem exchangedAt_cases {rx sent : List Byte} (h : (rx, sent) = s.exchangedAt p) :
    (rx = s.rx ∧ sent = s.sent) ∨
    (p.waiting = .send ∧ s.event = some .take ∧ rx = s.rx ∧ sent = s.sent ++ [s.offered p]) ∨
    (p.waiting = .recv ∧ s.event = some .deliver ∧ (∃ b, s.rx = b :: rx) ∧ sent = s.sent) := by
  unfold State.exchangedAt at h
  split_ifs at h with hsend hrecv
  · obtain ⟨rfl, rfl⟩ := Prod.mk.inj h
    exact .inr (.inl ⟨hsend.1, hsend.2, rfl, rfl⟩)
  · obtain ⟨rfl, rfl⟩ := Prod.mk.inj h
    cases hrx : s.rx with
    | nil => exact .inl ⟨rfl, rfl⟩
    | cons b rest => exact .inr (.inr ⟨hrecv.1, hrecv.2, ⟨b, rfl⟩, rfl⟩)
  · exact .inl (Prod.mk.inj h)
end Exchange

/-- Settles O52: what a step can do to the streams, and that a consistent transaction always makes its exchange. -/
theorem streamsKeepTheirOrder : Obligations.StreamsKeepTheirOrder := by
  unfold Obligations.StreamsKeepTheirOrder
  intro s t hstep
  have horder :
      (t.rx = s.rx ∧ t.sent = s.sent) ∨ (∃ b, s.event = some (.device b) ∧ t.rx = s.rx ++ [b] ∧ t.sent = s.sent) ∨
      ∃ cmd p l, s.seq = .txn cmd p l ∧
        ((p.waiting = .send ∧ s.event = some .take ∧ t.rx = s.rx ∧ t.sent = s.sent ++ [s.offered p]) ∨
        (p.waiting = .recv ∧ s.event = some .deliver ∧ (∃ b, s.rx = b :: t.rx) ∧ t.sent = s.sent)) := by
    rcases step_streams_cases hstep with h | ⟨b, he, h⟩ | ⟨cmd, p, l, hseq, h⟩
    · exact .inl (streams_eq_iff.1 h)
    · exact .inr (.inl ⟨b, he, Prod.mk.inj h⟩)
    · rcases exchangedAt_cases h with hsame | hexchange
      · exact .inl hsame
      · exact .inr (.inr ⟨cmd, p, l, hseq, hexchange⟩)
  refine ⟨?_, ?_, fun hcons cmd p l hseq hw he => ?_, fun hcons hw he => ?_⟩
  · rcases horder with ⟨-, hsent⟩ | ⟨b, -, -, hsent⟩ | ⟨cmd, p, l, hseq, ⟨hw, he, -, hsent⟩ | ⟨-, -, -, hsent⟩⟩
    · exact .inl hsent
    · exact .inl hsent
    · exact .inr ⟨cmd, p, l, hseq, hw, he, hsent⟩
    · exact .inl hsent
  · rcases horder with ⟨hrx, -⟩ | ⟨b, he, hrx, -⟩ | ⟨cmd, p, l, hseq, ⟨-, -, hrx, -⟩ | ⟨hw, he, hrx, -⟩⟩
    · exact .inl hrx
    · exact .inr (.inr ⟨b, he, hrx⟩)
    · exact .inl hrx
    · exact .inr (.inl ⟨by rwa [State.waiting, hseq], he, hrx⟩)
  · have h := step_streams_of_consistent hcons hseq he rfl hstep
    rw [exchangedAt_take hw he] at h
    exact (Prod.mk.inj h).2
  · cases hseq : s.seq with
    | idle => simp [State.waiting, hseq] at hw
    | run cmd => simp [State.waiting, hseq] at hw
    | txn cmd p l =>
      rw [State.waiting, hseq] at hw
      have h := step_streams_of_consistent hcons hseq he rfl hstep
      rw [exchangedAt_deliver hw he] at h
      exact (Prod.mk.inj h).1

end Sys2Proof.Machine

/-! ### Decoding and encoding -/

namespace Sys2Proof

/-- A frame of ESC and a code decodes as the code does (30_encoding R129). -/
theorem decodeFrame_commandFrame (code : Byte) : decodeFrame (commandFrame code) = decodeCode code := by
  simp [decodeFrame, decodeFrameBytes]

/-- The frame of an instruction decodes to it (30_encoding R129). -/
theorem decodeFrame_of_encode {i : Instr} {w : FrameWord} (h : encode i = .frame w) : decodeFrame w = .ok i := by
  cases i with
  | wireRead | wireWrite | wireRawread | wireRawwrite | wireCommdiag | wireSensordiag | wireRamdiag | wireModel
  | wireFirmware | wireErase | wireSetbpi | wireSetbpc | wireReset | wireLed81 | wireLed82 | wireLed83 | wireLed84
  | wireLed85 | wireCoercivityhi | wireCoercivitylo | wireLzquery =>
    obtain rfl := CodeWord.frame.inj h
    rw [decodeFrame_commandFrame]
    rfl
  | _ => nomatch h

/-- Settles O1: in each of the two encoding spaces the word of an instruction decodes to it. The decoder reads the
track field as it stands, so well-formedness is not needed (log entry 10). -/
theorem decodeInvertsEncode : Obligations.DecodeInvertsEncode := by
  unfold Obligations.DecodeInvertsEncode
  intro i _
  cases henc : encode i with
  | command cmd => exact decodeCommand_of_encode henc
  | frame w => exact decodeFrame_of_encode henc

/-- A listed code is the second byte of its instruction's frame (30_encoding R129). -/
theorem encode_of_decodeCode {code : Byte} {i : Instr} (h : decodeCode code = .ok i) :
    encode i = .frame (commandFrame code) := by
  have code_eq {n : Nat} (hn : code.toNat = n) : code = BitVec.ofNat 8 n := by simp [← hn]
  unfold decodeCode at h
  split at h
  case h_22 => cases h
  all_goals
    cases h
    rw [code_eq ‹_›]
    rfl

/-- A word whose reserved bits are 0 is assembled from its fields (30_encoding R120, R127). -/
theorem eq_commandWord_of_reservedClear {w : Word} (h : reservedClear w = true) :
    w = commandWord (argField w) (rtyField w) (trkField w) (opcField w) := by
  have hclear (k : Nat) (hk : 10 ≤ k ∧ k < 12 ∨ 13 ≤ k ∧ k < 24) : w.getLsbD k = false := by
    simp only [reservedClear, Bool.and_eq_true, beq_iff_eq] at h
    obtain ⟨hlow, hhigh⟩ := h
    rcases hk with hk | hk
    · have := congrArg (·.getLsbD (k - 10)) hlow
      simp only [BitVec.getLsbD_extractLsb', BitVec.getLsbD_zero] at this
      grind
    · have := congrArg (·.getLsbD (k - 13)) hhigh
      simp only [BitVec.getLsbD_extractLsb', BitVec.getLsbD_zero] at this
      grind
  apply BitVec.eq_of_getLsbD_eq
  intro k hk
  rw [getLsbD_commandWord]
  simp only [argField, rtyField, trkField, opcField, BitVec.getLsbD_extractLsb']
  grind

section Rows
variable {w : Word} {i : Instr}

theorem decodePlain_ok {j : Instr} (h : decodePlain j w = .ok i) :
    i = j ∧ trkField w = 0#2 ∧ rtyField w = false ∧ argField w = 0#8 := by
  unfold decodePlain at h
  split_ifs at h with htrk hrty harg
  cases h
  simp_all

theorem decodeOnTrack_ok {f : BitVec 2 → Instr} (h : decodeOnTrack f w = .ok i) :
    i = f (trkField w) ∧ rtyField w = false ∧ argField w = 0#8 := by
  unfold decodeOnTrack at h
  split_ifs at h with hrty harg
  cases h
  simp_all

theorem decodeRetriable_ok {f : Bool → Instr} (h : decodeRetriable f w = .ok i) :
    i = f (rtyField w) ∧ trkField w = 0#2 ∧ argField w = 0#8 := by
  unfold decodeRetriable at h
  split_ifs at h with htrk harg
  cases h
  simp_all

theorem decodeWithArg_ok {f : Byte → Instr} (h : decodeWithArg f w = .ok i) :
    i = f (argField w) ∧ trkField w = 0#2 ∧ rtyField w = false := by
  unfold decodeWithArg at h
  split_ifs at h with htrk hrty
  cases h
  simp_all

/-- An operation's word is assembled from the fields of the word it was decoded from (30_encoding R121, R127). -/
theorem encode_of_decodeOpc (h : decodeOpc w = .ok i) :
    encode i = .command (commandWord (argField w) (rtyField w) (trkField w) (opcField w)) := by
  have opc_eq {n : Nat} (hn : (opcField w).toNat = n) : opcField w = BitVec.ofNat 8 n := by simp [← hn]
  unfold decodeOpc at h
  split at h
  case h_25 => cases h
  case h_2 hopc | h_3 hopc | h_5 hopc | h_6 hopc =>
    obtain ⟨rfl, hrty, harg⟩ := decodeOnTrack_ok h
    rw [opc_eq hopc, hrty, harg]
    rfl
  case h_16 hopc | h_17 hopc =>
    obtain ⟨rfl, htrk, harg⟩ := decodeRetriable_ok h
    rw [opc_eq hopc, htrk, harg]
    rfl
  case h_20 hopc | h_24 hopc =>
    obtain ⟨rfl, htrk, hrty⟩ := decodeWithArg_ok h
    rw [opc_eq hopc, htrk, hrty]
    rfl
  all_goals
    obtain ⟨rfl, htrk, hrty, harg⟩ := decodePlain_ok h
    rw [opc_eq ‹_›, htrk, hrty, harg]
    rfl
end Rows

/-- A command word that decodes is its instruction's (30_encoding R120, R126). -/
theorem encode_of_decodeCommand {w : Word} {i : Instr} (h : decodeCommand w = .ok i) : encode i = .command w := by
  unfold decodeCommand at h
  split at h
  · rename_i hclear
    rw [encode_of_decodeOpc h, ← eq_commandWord_of_reservedClear hclear]
  · cases h

/-- Settles O2: no word of either encoding space has a bit that the decoder ignores. -/
theorem encodeInvertsDecode : Obligations.EncodeInvertsDecode := by
  unfold Obligations.EncodeInvertsDecode
  intro w i h
  cases w with
  | command w => exact encode_of_decodeCommand h
  | frame w =>
    obtain ⟨hw, hcode⟩ := decodeFrame_ok h
    rw [hw]
    exact encode_of_decodeCode hcode

/-- The decoder and the encoder of command words are inverse to each other. -/
theorem decodeCommand_ok_iff {w : Word} {i : Instr} : decodeCommand w = .ok i ↔ encode i = .command w :=
  ⟨encode_of_decodeCommand, decodeCommand_of_encode⟩

/-! ### The command word as a number -/

section CommandWordNumbers
variable (arg : Byte) (rty : Bool) (trk : BitVec 2) (opc : Byte)

theorem commandWord_toNat :
    (commandWord arg rty trk opc).toNat = arg.toNat * 2 ^ 24 + rty.toNat * 2 ^ 12 + trk.toNat * 2 ^ 8 + opc.toNat := by
  simp only [commandWord, Machine.toNat_append_eq_add, BitVec.toNat_ofBool, BitVec.toNat_ofNat]
  omega

/-- The fields do not overlap, so their sum is their disjunction (30_encoding R127). -/
theorem commandWord_toNat_eq_or :
    (commandWord arg rty trk opc).toNat = arg.toNat <<< 24 ||| rty.toNat <<< 12 ||| trk.toNat <<< 8 ||| opc.toNat := by
  have htrk : trk.toNat <<< 8 + opc.toNat < 2 ^ 12 := by omega
  have hrty : rty.toNat <<< 12 + (trk.toNat <<< 8 + opc.toNat) < 2 ^ 24 := by
    have := rty.toNat_lt
    omega
  rw [Nat.or_assoc, Nat.or_assoc, ← Nat.shiftLeft_add_eq_or_of_lt opc.isLt, ← Nat.shiftLeft_add_eq_or_of_lt htrk,
    ← Nat.shiftLeft_add_eq_or_of_lt hrty, commandWord_toNat]
  omega
end CommandWordNumbers

/-- Settles O3. -/
theorem commandWordIsAssembledFromItsFields : Obligations.CommandWordIsAssembledFromItsFields :=
  ⟨commandWord_toNat_eq_or, rfl, rfl, rfl, rfl⟩

/-- Settles O5. -/
theorem writtenOutWordsDecode : Obligations.WrittenOutWordsDecode :=
  ⟨rfl, rfl, rfl, rfl, rfl, rfl, rfl, rfl, rfl, rfl, rfl, rfl, rfl, rfl, rfl⟩

end Sys2Proof

/-! ### The operation map -/

namespace Sys2Proof.Machine

section AssembledWords
variable (arg : Byte) (rty : Bool) (trk : BitVec 2) (opc : Byte)

/-! The fields of an assembled word, as the operation map reads them from its number (30_encoding R120, R125). -/

theorem commandWord_opc : (commandWord arg rty trk opc).toNat % 256 = opc.toNat := by
  rw [commandWord_toNat]
  omega

theorem commandWord_trk : (commandWord arg rty trk opc).toNat / 256 % 4 = trk.toNat := by
  have := rty.toNat_lt
  rw [commandWord_toNat]
  omega

theorem commandWord_reservedLow : (commandWord arg rty trk opc).toNat / 1024 % 4 = 0 := by
  rw [commandWord_toNat]
  omega

theorem commandWord_rty : (commandWord arg rty trk opc).toNat / 4096 % 2 = rty.toNat := by
  have := rty.toNat_lt
  rw [commandWord_toNat]
  omega

theorem commandWord_reservedHigh : (commandWord arg rty trk opc).toNat / 8192 % 2048 = 0 := by
  have := rty.toNat_lt
  rw [commandWord_toNat]
  omega

theorem commandWord_arg : (commandWord arg rty trk opc).toNat / 16777216 = arg.toNat := by
  have := rty.toNat_lt
  rw [commandWord_toNat]
  omega
end AssembledWords

/-- The field values that the columns of the row give (30_encoding R121 to R124). -/
def MapRow.legalFields (r : MapRow) (trk : BitVec 2) (rty : Bool) (arg : Byte) : Prop :=
  (if r.trk then trk ≠ 0#2 else trk = 0#2) ∧ (r.rty = false → rty = false) ∧ (r.arg = false → arg = 0#8)

section Rows
variable (r : MapRow) (arg : Byte) (rty : Bool) (trk : BitVec 2) (opc : Byte)

/-- A row admits an assembled word exactly when the OPC is the row's and the fields are legal for it. -/
theorem admits_commandWord :
    r.admits (commandWord arg rty trk opc) ↔ opc.toNat = r.opc ∧ r.legalFields trk rty arg := by
  have htrk : trk = 0#2 ↔ trk.toNat = 0 := BitVec.toNat_inj.symm
  have harg : arg = 0#8 ↔ arg.toNat = 0 := BitVec.toNat_inj.symm
  have hrty : rty = false ↔ rty.toNat = 0 := by cases rty <;> simp
  simp only [MapRow.admits, MapRow.legalFields, commandWord_opc, commandWord_trk, commandWord_reservedLow,
    commandWord_rty, commandWord_reservedHigh, commandWord_arg, ne_eq, htrk, harg, hrty, Nat.one_le_iff_ne_zero,
    true_and]

/-- A row reads an assembled word's own fields (30_encoding R125). -/
theorem operation_commandWord : r.operation (commandWord arg rty trk opc) = r.op trk rty arg := by
  have htrk : BitVec.ofNat 2 ((commandWord arg rty trk opc).toNat / 256) = trk := by
    rw [← BitVec.toNat_inj, BitVec.toNat_ofNat]
    exact commandWord_trk ..
  have hrty : decide ((commandWord arg rty trk opc).toNat / 4096 % 2 = 1) = rty := by
    rw [commandWord_rty]
    cases rty <;> rfl
  have harg : BitVec.ofNat 8 ((commandWord arg rty trk opc).toNat / 16777216) = arg := by
    rw [commandWord_arg, BitVec.ofNat_toNat, BitVec.setWidth_eq]
  rw [MapRow.operation, htrk, hrty, harg]
end Rows

/-- A word that a row admits has its reserved bits 0 (30_encoding R126), so it is assembled from its fields. -/
theorem eq_commandWord_of_admits {r : MapRow} {w : Word} (h : r.admits w) :
    w = commandWord (argField w) (rtyField w) (trkField w) (opcField w) := by
  obtain ⟨-, -, hlow, -, hhigh, -⟩ := h
  refine eq_commandWord_of_reservedClear ?_
  simp only [reservedClear, Bool.and_eq_true, beq_iff_eq, ← BitVec.toNat_inj, BitVec.extractLsb'_toNat,
    Nat.shiftRight_eq_div_pow]
  exact ⟨hlow, hhigh⟩

/-- The operation of a row on legal fields is well-formed, and encoded with the row's OPC and these fields. -/
theorem encode_op_of_legalFields {trk : BitVec 2} {rty : Bool} {arg : Byte} :
    ∀ r ∈ operationMap, r.legalFields trk rty arg →
      encode (r.op trk rty arg) = .command (commandWord arg rty trk (BitVec.ofNat 8 r.opc)) ∧
        (r.op trk rty arg).wellFormed = true := by
  simp only [operationMap, List.cons_append, List.nil_append, List.forall_mem_cons]
  simp +contextual [MapRow.legalFields, encode, Instr.wellFormed]

/-- Every OPC of the operation map is a byte. -/
theorem opc_lt_of_mem : ∀ r ∈ operationMap, r.opc < 256 := by
  simp [operationMap]

/-- A well-formed instruction with a command word is the operation of a row on legal fields. -/
theorem exists_row_of_encode {i : Instr} {w : Word} (h : encode i = .command w) (hwf : i.wellFormed = true) :
    ∃ r ∈ operationMap, ∃ trk rty arg, r.legalFields trk rty arg ∧ r.op trk rty arg = i := by
  have row (n : Nat) {r : MapRow} (hr : operationMap[n]? = some r) (trk : BitVec 2) (rty : Bool) (arg : Byte)
      (hlegal : r.legalFields trk rty arg) (hop : r.op trk rty arg = i) :
      ∃ r ∈ operationMap, ∃ trk rty arg, r.legalFields trk rty arg ∧ r.op trk rty arg = i :=
    ⟨r, List.mem_of_getElem? hr, trk, rty, arg, hlegal, hop⟩
  cases i with
  | nop => exact row 0 rfl 0 false 0 ⟨rfl, fun _ => rfl, fun _ => rfl⟩ rfl
  | getbit trk => exact row 1 rfl trk false 0 ⟨bne_iff_ne.1 hwf, fun _ => rfl, fun _ => rfl⟩ rfl
  | setbit trk => exact row 2 rfl trk false 0 ⟨bne_iff_ne.1 hwf, fun _ => rfl, fun _ => rfl⟩ rfl
  | revbyte => exact row 3 rfl 0 false 0 ⟨rfl, fun _ => rfl, fun _ => rfl⟩ rfl
  | revtrack trk => exact row 4 rfl trk false 0 ⟨bne_iff_ne.1 hwf, fun _ => rfl, fun _ => rfl⟩ rfl
  | unpack trk => exact row 5 rfl trk false 0 ⟨bne_iff_ne.1 hwf, fun _ => rfl, fun _ => rfl⟩ rfl
  | revbits => exact row 6 rfl 0 false 0 ⟨rfl, fun _ => rfl, fun _ => rfl⟩ rfl
  | rectify => exact row 7 rfl 0 false 0 ⟨rfl, fun _ => rfl, fun _ => rfl⟩ rfl
  | peakfind => exact row 8 rfl 0 false 0 ⟨rfl, fun _ => rfl, fun _ => rfl⟩ rfl
  | extract => exact row 9 rfl 0 false 0 ⟨rfl, fun _ => rfl, fun _ => rfl⟩ rfl
  | demod => exact row 10 rfl 0 false 0 ⟨rfl, fun _ => rfl, fun _ => rfl⟩ rfl
  | decodeAba => exact row 11 rfl 0 false 0 ⟨rfl, fun _ => rfl, fun _ => rfl⟩ rfl
  | decodeIata => exact row 12 rfl 0 false 0 ⟨rfl, fun _ => rfl, fun _ => rfl⟩ rfl
  | devReset => exact row 13 rfl 0 false 0 ⟨rfl, fun _ => rfl, fun _ => rfl⟩ rfl
  | devCommtest => exact row 14 rfl 0 false 0 ⟨rfl, fun _ => rfl, fun _ => rfl⟩ rfl
  | devReadiso rty => exact row 15 rfl 0 rty 0 ⟨rfl, (nomatch ·), fun _ => rfl⟩ rfl
  | devReadraw rty => exact row 16 rfl 0 rty 0 ⟨rfl, (nomatch ·), fun _ => rfl⟩ rfl
  | devWriteiso => exact row 17 rfl 0 false 0 ⟨rfl, fun _ => rfl, fun _ => rfl⟩ rfl
  | devWriteraw => exact row 18 rfl 0 false 0 ⟨rfl, fun _ => rfl, fun _ => rfl⟩ rfl
  | devErase arg => exact row 19 rfl 0 false arg ⟨rfl, fun _ => rfl, (nomatch ·)⟩ rfl
  | devModel => exact row 20 rfl 0 false 0 ⟨rfl, fun _ => rfl, fun _ => rfl⟩ rfl
  | devFirmware => exact row 21 rfl 0 false 0 ⟨rfl, fun _ => rfl, fun _ => rfl⟩ rfl
  | devLzquery => exact row 22 rfl 0 false 0 ⟨rfl, fun _ => rfl, fun _ => rfl⟩ rfl
  | devXcmd arg => exact row 23 rfl 0 false arg ⟨rfl, fun _ => rfl, (nomatch ·)⟩ rfl
  | _ => nomatch h

/-- Settles O4: a word that decodes is its instruction's, a word that a row admits is assembled from its fields, and the
rows and the encoder assign the same instruction to the same legal fields. -/
theorem commandWordsFollowTheOperationMap : Obligations.CommandWordsFollowTheOperationMap := by
  unfold Obligations.CommandWordsFollowTheOperationMap
  intro w i
  rw [decodeCommand_ok_iff]
  constructor
  · rintro ⟨henc, hwf⟩
    obtain ⟨r, hr, trk, rty, arg, hlegal, rfl⟩ := exists_row_of_encode henc hwf
    obtain rfl : _ = w := CodeWord.command.inj ((encode_op_of_legalFields r hr hlegal).1.symm.trans henc)
    have hadmits := (admits_commandWord r arg rty trk (BitVec.ofNat 8 r.opc)).2
      ⟨Nat.mod_eq_of_lt (opc_lt_of_mem r hr), hlegal⟩
    exact ⟨r, hr, hadmits, operation_commandWord ..⟩
  · rintro ⟨r, hr, hadmits, rfl⟩
    have hw := eq_commandWord_of_admits hadmits
    rw [hw, admits_commandWord] at hadmits
    obtain ⟨hopc, hlegal⟩ := hadmits
    obtain ⟨henc, hwf⟩ := encode_op_of_legalFields r hr hlegal
    have hopc' : BitVec.ofNat 8 r.opc = opcField w := by rw [← hopc, BitVec.ofNat_toNat, BitVec.setWidth_eq]
    rw [hopc', ← hw] at henc
    rw [hw, operation_commandWord, ← hw]
    exact ⟨henc, hwf⟩

end Sys2Proof.Machine

/-! ### Where a transaction goes on after a command frame -/

namespace Sys2Proof.Machine

/-! What a move to a position, a completion and the end of a read attempt leave, as the statements say it. -/

section Arrivals
variable {s u : State} {cmd : Word} {q : Point} {l : Locals} (hseq : u.seq = .txn cmd q l) (hs : s.sameSurroundings u)
include hs

theorem completeWith_endsWith (e : ErrCode) : s.endsWith (u.completeWith e) u.csr e := by
  refine ⟨?_, rfl, hs⟩
  rw [completeWith_csr, completed_eq_statusOnCompletion]

include hseq

theorem moveTo_blocksAt (p : Point) : s.blocksAt (u.moveTo p) cmd p l u.csr := by
  rw [moveTo_of_txn u p q l hseq]
  exact ⟨rfl, rfl, hs⟩

theorem readAttempt_blocksAt (code : Byte) :
    s.blocksAt (readAttempt code u) cmd (.frame (commandFrame code) .esc) l (clearedForRead u.csr) :=
  moveTo_blocksAt (u := u.clearForRead) hseq hs _

/-- The next attempt is counted and its device reset offered (44_retry R341, R342). -/
theorem retryAttempt_blocksAt :
    s.blocksAt (retryAttempt u) cmd (.frame 0x1B61#16 .esc) { l with attempts := l.attempts + 1 }
      { u.csr with status := { u.csr.status with attempts := BitVec.ofNat 8 (min (l.attempts + 1) 255) } } := by
  have hlocals : u.locals = l := by simp [State.locals, hseq]
  simp only [retryAttempt, hlocals]
  have hset : u.setLocals { l with attempts := l.attempts + 1 } =
      { u with seq := .txn cmd q { l with attempts := l.attempts + 1 } } := by simp [State.setLocals, hseq]
  rw [hset]
  exact moveTo_blocksAt (u := State.setAttempts { u with seq := .txn cmd q { l with attempts := l.attempts + 1 } } _)
    rfl hs _

/-- The end of an attempt, as the retry loop decides it (44_retry R342, R343). -/
theorem endAttempt_attemptEnds (rty : Bool) (e : ErrCode) :
    s.attemptEnds (endAttempt rty e u) cmd rty l u.csr e := by
  have hlocals : u.locals = l := by simp [State.locals, hseq]
  unfold endAttempt
  rw [hlocals]
  by_cases hretry : rty = true ∧ e ≠ .none
  · obtain ⟨rfl, he⟩ := hretry
    simp only [he, ne_eq, not_false_iff, decide_true, Bool.and_self, if_true]
    split
    · rename_i hlast
      obtain ⟨hmax, hatt⟩ := hlast
      refine ⟨fun _ => completeWith_endsWith hs e, fun _ _ hmore => ?_⟩
      rcases hmore with h0 | hlt
      · exact absurd h0 hmax
      · omega
    · rename_i hmore
      refine ⟨fun hend => ?_, fun _ _ _ => retryAttempt_blocksAt hseq hs⟩
      rcases hend with h | h | h
      · cases h
      · exact absurd h he
      · exact absurd h hmore
  · have hstop : (rty && decide (e ≠ .none)) = false := by simpa using hretry
    simp only [hstop]
    exact ⟨fun _ => completeWith_endsWith hs e, fun hr he => absurd ⟨hr, he⟩ hretry⟩
end Arrivals

/-! No piece of the pseudocode behind a command frame writes memory. -/

section Memory
variable (s : State)

theorem readAttempt_mem (code : Byte) : (readAttempt code s).mem = s.mem := moveTo_mem _ _

theorem retryAttempt_mem : (retryAttempt s).mem = s.mem := by simp [retryAttempt, State.sendCmd, State.setAttempts]

theorem endAttempt_mem (rty : Bool) (e : ErrCode) : (endAttempt rty e s).mem = s.mem := by
  simp only [endAttempt]
  split
  · split
    · rfl
    · exact retryAttempt_mem s
  · rfl

theorem settleWait_mem {after : State → State} (hafter : (after s).mem = s.mem) :
    (s.settleWait after).mem = s.mem := by
  unfold State.settleWait
  split
  · exact hafter
  · exact moveTo_mem _ _

theorem receiveReply_mem (n : Nat) {after : State → State} (hafter : (after s).mem = s.mem) :
    (s.receiveReply n after).mem = s.mem := by
  unfold State.receiveReply
  split
  · exact hafter
  · exact moveTo_mem _ _

theorem readAfterFrame_mem (rty : Bool) (code : Byte) (w : FrameWord) : (readAfterFrame rty code w s).mem = s.mem := by
  unfold readAfterFrame startScan
  split
  · exact settleWait_mem s (readAttempt_mem s code)
  · split
    · exact endAttempt_mem s rty _
    · exact moveTo_mem _ _

theorem continueAfterFrame_mem (i : Instr) (w : FrameWord) : (continueAfterFrame i w s).mem = s.mem := by
  cases i with
  | devReset => exact settleWait_mem s rfl
  | devReadiso rty | devReadraw rty => exact readAfterFrame_mem s rty _ w
  | devCommtest | devWriteiso | devWriteraw | devErase => exact moveTo_mem _ _
  | devModel | devFirmware | devLzquery => exact receiveReply_mem s _ rfl
  | devXcmd =>
    show (xcmdPayloadFrom 0 s).mem = s.mem
    unfold xcmdPayloadFrom
    split
    · exact moveTo_mem _ _
    · exact receiveReply_mem s _ rfl
  | _ => rfl

theorem resumeTransaction_mem (cmd : Word) (w : FrameWord) : (resumeTransaction cmd w s).mem = s.mem := by
  unfold resumeTransaction
  split
  · exact continueAfterFrame_mem s _ w
  · rfl

theorem resumeTransaction_agenda (cmd : Word) (w : FrameWord) : (resumeTransaction cmd w s).agenda = s.agenda := by
  unfold resumeTransaction
  split
  · have hkept := (params_agenda_keptBySteps s.params s.agenda).keptByTransactions
    exact (hkept.continueAfterFrame _ w ⟨rfl, rfl⟩).2
  · rfl
end Memory

/-! What each transaction does behind its frame. -/

section AfterFrame
variable {s u : State} {cmd : Word} {q : Point} {l : Locals} {code : Byte} (hs : s.sameSurroundings u)
  (hseq : u.seq = .txn cmd q l)

theorem commandFrame_eq_iff (a b : Byte) : commandFrame a = commandFrame b ↔ a = b :=
  ⟨fun h => by simpa using congrArg FrameWord.second h, congrArg commandFrame⟩

/-- A read tells the frame of the device reset from the frame of the read itself. -/
theorem readAfterFrame_eq (rty : Bool) (read : Byte) :
    readAfterFrame rty read (commandFrame code) u =
      if rty = true ∧ code = 0x61#8 then u.settleWait (readAttempt read) else startScan rty u := by
  simp [readAfterFrame, commandFrame_eq_iff]

theorem settleWait_of_zero (h : u.params.settleTicks = 0) (after : State → State) : u.settleWait after = after u :=
  if_pos h

theorem settleWait_of_pos (h : u.params.settleTicks ≠ 0) (after : State → State) :
    u.settleWait after = u.moveTo (.settle u.params.settleTicks) := if_neg h

theorem receiveReply_of_pos {n : Nat} (h : n ≠ 0) (after : State → State) :
    u.receiveReply n after = u.moveTo (.reply n) := if_neg h

theorem startScan_of_zero (h : u.params.startScan = 0) (rty : Bool) :
    startScan rty u = endAttempt rty .framingError u := if_pos h

theorem startScan_of_pos (h : u.params.startScan ≠ 0) (rty : Bool) : startScan rty u = u.moveTo (.scan 0) := if_neg h

/-- The fixed-size responses of the queries have at least one byte (00_scope R7). -/
theorem Params.queryLengths_ne_zero {p : Params} (h : p.valid = true) :
    p.modelLen ≠ 0 ∧ p.fwLen ≠ 0 ∧ p.lzLen ≠ 0 := by
  simp only [Params.valid, fitsResponse, Bool.and_eq_true, decide_eq_true_eq] at h
  refine ⟨?_, ?_, ?_⟩
  all_goals
    rintro h0
    simp [h0] at h

include hs

/-- With no settle tick DEV.RESET ends behind its frame (43_serial_protocol R272). -/
theorem devReset_endsWith {w : FrameWord} (hticks : u.params.settleTicks = 0) :
    s.endsWith (continueAfterFrame .devReset w u) u.csr .none := by
  simp only [continueAfterFrame, resetAfterFrame, settleWait_of_zero hticks]
  exact completeWith_endsWith hs .none

/-- With neither payload nor response DEV.XCMD ends behind its frame (43_serial_protocol R300). -/
theorem devXcmd_endsWith {arg : Byte} {w : FrameWord} (hx : u.csr.xtxlen = 0) (hr : u.csr.xrxlen = 0) :
    s.endsWith (continueAfterFrame (.devXcmd arg) w u) u.csr .none := by
  have ht : continueAfterFrame (.devXcmd arg) w u = u.completeWith .none := by
    simp [continueAfterFrame, xcmdAfterFrame, xcmdPayloadFrom, xcmdReceive, State.receiveReply, hx, hr]
  rw [ht]
  exact completeWith_endsWith hs .none

include hseq

theorem readAfterFrame_blocksAt {rty : Bool} {read : Byte} {p : Point}
    (h : pointAfterFrame.pointAfterReadFrame u.params code rty = some p) :
    s.blocksAt (readAfterFrame rty read (commandFrame code) u) cmd p l u.csr := by
  rw [readAfterFrame_eq]
  simp only [pointAfterFrame.pointAfterReadFrame, Bool.and_eq_true, beq_iff_eq] at h
  split_ifs at h with hreset hticks hscan
  · obtain rfl := Option.some.inj h
    rw [if_pos hreset, settleWait_of_pos hticks]
    exact moveTo_blocksAt hseq hs _
  · obtain rfl := Option.some.inj h
    rw [if_neg hreset, startScan_of_pos hscan]
    exact moveTo_blocksAt hseq hs _

/-- With no settle tick a retried read begins its attempt behind the frame of its device reset (44_retry R341). -/
theorem readAfterFrame_reset_blocksAt {rty : Bool} {read : Byte} (hrty : rty = true) (hreset : code = 0x61#8)
    (hticks : u.params.settleTicks = 0) :
    s.blocksAt (readAfterFrame rty read (commandFrame code) u) cmd (.frame (commandFrame read) .esc) l
      (clearedForRead u.csr) := by
  rw [readAfterFrame_eq, if_pos ⟨hrty, hreset⟩, settleWait_of_zero hticks]
  exact readAttempt_blocksAt hseq hs read

/-- With no START scan the frame of the read ends the attempt (43_serial_protocol R277). -/
theorem readAfterFrame_attemptEnds {rty : Bool} {read : Byte} (hread : ¬ (rty = true ∧ code = 0x61#8))
    (hscan : u.params.startScan = 0) :
    s.attemptEnds (readAfterFrame rty read (commandFrame code) u) cmd rty l u.csr .framingError := by
  rw [readAfterFrame_eq, if_neg hread, startScan_of_zero hscan]
  exact endAttempt_attemptEnds hseq hs rty _

/-- A transaction goes on at the position that the rules give it behind the frame, if they give one. -/
theorem continueAfterFrame_blocksAt (hvalid : u.params.valid = true) {j : Instr} {p : Point}
    (h : pointAfterFrame u.params u.csr code j = some p) :
    s.blocksAt (continueAfterFrame j (commandFrame code) u) cmd p l u.csr := by
  obtain ⟨hmodel, hfw, hlz⟩ := Params.queryLengths_ne_zero hvalid
  cases j with
  | devReset =>
    simp only [pointAfterFrame] at h
    split_ifs at h with hticks
    obtain rfl := Option.some.inj h
    simp only [continueAfterFrame, resetAfterFrame, settleWait_of_pos hticks]
    exact moveTo_blocksAt hseq hs _
  | devReadiso rty | devReadraw rty => exact readAfterFrame_blocksAt hs hseq h
  | devCommtest | devWriteiso | devWriteraw | devErase =>
    obtain rfl := Option.some.inj h
    exact moveTo_blocksAt hseq hs _
  | devModel =>
    obtain rfl := Option.some.inj h
    simp only [continueAfterFrame, modelAfterFrame, receiveReply_of_pos hmodel]
    exact moveTo_blocksAt hseq hs _
  | devFirmware =>
    obtain rfl := Option.some.inj h
    simp only [continueAfterFrame, firmwareAfterFrame, receiveReply_of_pos hfw]
    exact moveTo_blocksAt hseq hs _
  | devLzquery =>
    obtain rfl := Option.some.inj h
    simp only [continueAfterFrame, lzqueryAfterFrame, receiveReply_of_pos hlz]
    exact moveTo_blocksAt hseq hs _
  | devXcmd arg =>
    simp only [pointAfterFrame] at h
    simp only [continueAfterFrame, xcmdAfterFrame, xcmdPayloadFrom, xcmdReceive]
    split_ifs at h with hx hr
    · obtain rfl := Option.some.inj h
      rw [if_pos (by bv_omega)]
      exact moveTo_blocksAt hseq hs _
    · obtain rfl := Option.some.inj h
      rw [if_neg (by bv_omega), receiveReply_of_pos (by bv_omega)]
      exact moveTo_blocksAt hseq hs _
  | _ => cases h
end AfterFrame

/-- The codes of 30_encoding R129 decode to their frames. -/
theorem decodeCode_of_mem : ∀ x ∈ commandCodes, decodeCode x.1 = .ok x.2 := by
  simp only [commandCodes, List.forall_mem_cons]
  exact ⟨rfl, rfl, rfl, rfl, rfl, rfl, rfl, rfl, rfl, rfl, rfl, rfl, rfl, rfl, rfl, rfl, rfl, rfl, rfl, rfl, rfl,
    by simp⟩

/-- Settles O44: a frame as an instruction is its emission, and behind the code the transaction of the command word goes
on with what its pseudocode does there. -/
theorem wireFramesAreSentByteByByte : Obligations.WireFramesAreSentByteByByte := by
  unfold Obligations.WireFramesAreSentByteByByte
  intro s code i cmd l b hmem hseq hevent
  have hexec := exec_of_decodeCode (decodeCode_of_mem _ hmem) s
  rw [emitFrame_of_held (code := code) hseq] at hexec
  refine ⟨_, hexec, ?_⟩
  have hs : s.sameSurroundings (s.sendByte code) := ⟨rfl, rfl, rfl⟩
  have hsent : (s.sendByte code).seq = .txn cmd (.frame (commandFrame code) b) l := hseq
  cases b with
  | esc =>
    have ht : frameStep (commandFrame code) .esc (resumeTransaction cmd (commandFrame code)) s =
        (s.sendByte 0x1B#8).moveTo (.frame (commandFrame code) .code) := by
      simp [frameStep, hevent]
    rw [ht]
    refine ⟨readByte_of_mem_eq (by simp), by simp, by simp, fun _ => ⟨by simp, ?_⟩, nofun, fun _ => nofun⟩
    exact moveTo_blocksAt (u := s.sendByte 0x1B#8) hseq ⟨rfl, rfl, rfl⟩ _
  | code =>
    have ht : frameStep (commandFrame code) .code (resumeTransaction cmd (commandFrame code)) s =
        resumeTransaction cmd (commandFrame code) (s.sendByte code) := by
      simp [frameStep, hevent]
    rw [ht]
    obtain ⟨hrx, htx⟩ := streams_eq_iff.1 (silent_resumeTransaction cmd (commandFrame code) (s.sendByte code))
    refine ⟨readByte_of_mem_eq (resumeTransaction_mem _ _ _), hrx, resumeTransaction_agenda _ _ _, nofun,
      fun _ => htx, fun j _ henc hvalid => ?_⟩
    rw [resumeTransaction_of_encode henc]
    refine ⟨fun p hp => continueAfterFrame_blocksAt hs hsent hvalid hp, ?_, ?_, ?_⟩
    · rintro rfl hticks
      exact devReset_endsWith hs hticks
    · rintro arg rfl hx hr
      exact devXcmd_endsWith hs hx hr
    · intro rty read hj
      have hread : continueAfterFrame j (commandFrame code) = readAfterFrame rty read (commandFrame code) := by
        simp only [List.mem_cons, List.not_mem_nil, or_false, Prod.mk.injEq] at hj
        rcases hj with ⟨rfl, rfl⟩ | ⟨rfl, rfl⟩
        all_goals rfl
      rw [hread]
      exact ⟨fun ⟨hrty, hreset⟩ hticks => readAfterFrame_reset_blocksAt hs hsent hrty hreset hticks,
        fun hread hscan => readAfterFrame_attemptEnds hs hsent hread hscan⟩

end Sys2Proof.Machine

/-! ### Exchanging bytes -/

namespace Sys2Proof.Machine

/-- The state with these bytes queued for the block, these bytes sent and these moves to come. -/
def State.wired (s : State) (rx sent : List Byte) (moves : List Action) : State :=
  { s with rx := rx, sent := sent, agenda := moves }

section Wired
variable (s : State) (rx sent : List Byte) (moves : List Action)

@[simp] theorem wired_params : (s.wired rx sent moves).params = s.params := rfl
@[simp] theorem wired_mem : (s.wired rx sent moves).mem = s.mem := rfl
@[simp] theorem wired_busReply : (s.wired rx sent moves).busReply = s.busReply := rfl
@[simp] theorem wired_draws : (s.wired rx sent moves).draws = s.draws := rfl
end Wired

/-- The transaction `cmd`, blocked at `p` in `s`, is blocked at `q` in `t` after the moves: it has received the one list
of bytes and sent the other, whatever is queued, sent or to come besides (60_exceptions R381). -/
def State.leadsTo (cmd : Word) (l : Locals) (s : State) (p : Point) (moves : List Action) (received sent : List Byte)
    (t : State) (q : Point) : Prop :=
  ∀ (more before : List Byte) (rest : List Action),
    runs moves.length ((s.wired (received ++ more) before (moves ++ rest)).blockedAt cmd p l) =
      .next ((t.wired more (before ++ sent) rest).blockedAt cmd q l)

section LeadsTo
variable {cmd : Word} {l : Locals} {s t u : State} {p q r : Point} {moves₁ moves₂ : List Action}
  {rx₁ rx₂ tx₁ tx₂ : List Byte}

theorem leadsTo_refl : State.leadsTo cmd l s p [] [] [] s p := fun _ _ _ => by simp

theorem State.leadsTo.trans (h₁ : State.leadsTo cmd l s p moves₁ rx₁ tx₁ t q)
    (h₂ : State.leadsTo cmd l t q moves₂ rx₂ tx₂ u r) :
    State.leadsTo cmd l s p (moves₁ ++ moves₂) (rx₁ ++ rx₂) (tx₁ ++ tx₂) u r := by
  intro more before rest
  rw [List.length_append, List.append_assoc, List.append_assoc, runs_add _ (h₁ _ _ _), h₂, List.append_assoc]

/-- The transport takes the bytes one by one, and nothing else changes. -/
def State.sends (cmd : Word) (l : Locals) (s : State) (p : Point) (bytes : List Byte) (q : Point) : Prop :=
  State.leadsTo cmd l s p (List.replicate bytes.length .take) [] bytes s q

/-- The transport delivers the bytes one by one, and `t` is what they make of the state. -/
def State.receives (cmd : Word) (l : Locals) (s : State) (p : Point) (bytes : List Byte) (t : State) (q : Point) :
    Prop :=
  State.leadsTo cmd l s p (List.replicate bytes.length .deliver) bytes [] t q

theorem State.sends.trans (h₁ : State.sends cmd l s p tx₁ q) (h₂ : State.sends cmd l s q tx₂ r) :
    State.sends cmd l s p (tx₁ ++ tx₂) r := by
  unfold State.sends
  rw [List.length_append, List.replicate_add]
  exact State.leadsTo.trans h₁ h₂

theorem State.receives.trans (h₁ : State.receives cmd l s p rx₁ t q) (h₂ : State.receives cmd l t q rx₂ u r) :
    State.receives cmd l s p (rx₁ ++ rx₂) u r := by
  unfold State.receives
  rw [List.length_append, List.replicate_add]
  exact State.leadsTo.trans h₁ h₂

/-- What a position offers depends on the registers and the memory alone. -/
theorem offered_wired (rx tx : List Byte) (moves : List Action) (p' : Point) :
    ((s.wired rx tx moves).blockedAt cmd p' l).offered p = s.offered p := by
  cases p with
  | frame w b => cases b <;> rfl
  | writeLen t => cases t <;> rfl
  | _ => rfl

namespace Pseudocode
variable {begins : State → State} {afterFrame : FrameWord → State → State} {sent : Point → State → State}
  {received : Point → Byte → State → State} {settled : State → State}
  (hcode : Pseudocode cmd begins afterFrame sent received settled)
include hcode

/-- A `Send` other than a command frame's sends the byte it offers. -/
theorem sends_byte (hp : ∀ w b, p ≠ .frame w b) (hw : p.waiting = .send)
    (hnext : ∀ rx tx moves,
      sent p ((s.wired rx tx moves).blockedAt cmd p l) = (s.wired rx tx moves).blockedAt cmd q l) :
    State.sends cmd l s p [s.offered p] q := by
  intro more before rest
  have hsent := hnext more (before ++ [s.offered p]) (.take :: rest)
  rw [List.length_replicate, List.length_singleton, runs_one (hcode.step_take (rest := rest) hp hw rfl), offered_wired]
  exact congrArg (fun u : State => Host.Outcome.next u.pop) hsent

theorem step_deliver_wired {b : Byte} {more before : List Byte} {rest : List Action} (hw : p.waiting = .recv) :
    Machine.step ((s.wired (b :: more) before (.deliver :: rest)).blockedAt cmd p l) =
      .next (received p b ((s.wired more before (.deliver :: rest)).blockedAt cmd p l)).pop :=
  hcode.step_deliver hw rfl rfl

/-- A `Recv` receives the next byte. -/
theorem receives_byte {b : Byte} (hw : p.waiting = .recv)
    (hnext : ∀ rx tx moves,
      received p b ((s.wired rx tx moves).blockedAt cmd p l) = (t.wired rx tx moves).blockedAt cmd q l) :
    State.receives cmd l s p [b] t q := by
  intro more before rest
  rw [List.length_replicate, List.length_singleton, List.replicate_one, List.singleton_append, List.singleton_append,
    List.append_nil, runs_one (hcode.step_deliver_wired hw), hnext]
  rfl
end Pseudocode
end LeadsTo

/-! ### Sending a write frame -/

theorem write_pseudocode (raw : Bool) :
    Pseudocode (if raw then 0x00000035#32 else 0x00000034#32) (writeBegins (if raw then 0x6E#8 else 0x77#8))
      writeAfterFrame (writeSent raw) (replyReceived checkStatusAndComplete) id where
  step hseq hagenda ha := by
    cases raw with
    | false =>
      rw [step_of_transaction (i := .devWriteiso) rfl (by simp [firstCode]) hseq hagenda ha]
      simp only [exec, execDevWriteiso, inTransaction_of_txn _ _ _ hseq, popNext]
      rfl
    | true =>
      rw [step_of_transaction (i := .devWriteraw) rfl (by simp [firstCode]) hseq hagenda ha]
      simp only [exec, execDevWriteraw, inTransaction_of_txn _ _ _ hseq, popNext]
      rfl

/-- The bytes of a track in a write frame (30_encoding R132). -/
def State.writeTrackFrame (s : State) (raw : Bool) (t : Track) : List Byte :=
  [0x1B#8, t.wireNumber] ++ (if raw then [(s.tk t).len] else []) ++ s.trackBytes t

/-- What a write sends behind its command frame: START, the three tracks, END and FS (30_encoding R132). -/
def State.writeBody (s : State) (raw : Bool) : List Byte :=
  [0x73#8] ++ s.writeTrackFrame raw .t1 ++ s.writeTrackFrame raw .t2 ++ s.writeTrackFrame raw .t3 ++
    ([0x3F#8] ++ [0x1C#8])

theorem writeFrame_eq (s : State) (raw : Bool) :
    s.writeFrame raw = [0x1B#8, if raw then 0x6E#8 else 0x77#8] ++ s.clearReply.writeBody raw := rfl

/-- Where a write goes on behind a track (43_serial_protocol R292). -/
def Track.afterWrite : Track → Point
  | .t1 => .writeEsc .t2
  | .t2 => .writeEsc .t3
  | .t3 => .writeEnd

/-- Where a write goes on before byte `j` of a track: at that byte, or behind the track when it has no more. -/
def State.writePoint (s : State) (t : Track) (j : Nat) : Point :=
  if j < s.trackLen t then .writeData t j else t.afterWrite

section WriteFrame
variable {cmd : Word} {l : Locals} {s : State} {p : Point} {t : Track}

theorem writeTrackFrom_wired (rx tx : List Byte) (moves : List Action) (j : Nat) :
    writeTrackFrom t j ((s.wired rx tx moves).blockedAt cmd p l) =
      (s.wired rx tx moves).blockedAt cmd (s.writePoint t j) l := by
  have hlen : ((s.wired rx tx moves).blockedAt cmd p l).trackLen t = s.trackLen t := by cases t <;> rfl
  simp only [writeTrackFrom, State.writePoint, hlen]
  split
  · rfl
  · cases t <;> rfl

namespace Pseudocode
variable {raw : Bool} {begins : State → State} {afterFrame : FrameWord → State → State}
  {received : Point → Byte → State → State} {settled : State → State}
  (hcode : Pseudocode cmd begins afterFrame (writeSent raw) received settled)
include hcode

/-- The bytes of a track from byte `j` on. -/
theorem sends_trackData (n j : Nat) (hn : j + n = s.trackLen t) :
    State.sends cmd l s (s.writePoint t j) ((List.range' j n).map (s.trk t)) t.afterWrite := by
  induction n generalizing j with
  | zero =>
    rw [State.writePoint, if_neg (by omega)]
    exact leadsTo_refl
  | succ n ih =>
    have hbyte : State.sends cmd l s (.writeData t j) [s.trk t j] (s.writePoint t (j + 1)) :=
      hcode.sends_byte (by simp) rfl fun rx tx moves => writeTrackFrom_wired rx tx moves (j + 1)
    rw [State.writePoint, if_pos (by omega)]
    exact hbyte.trans (ih (j + 1) (by omega))

/-- A track of a write frame: its header, in a raw write its length, and its bytes. -/
theorem sends_writeTrack : State.sends cmd l s (.writeEsc t) (s.writeTrackFrame raw t) t.afterWrite := by
  have hesc : State.sends cmd l s (.writeEsc t) [0x1B#8] (.writeNum t) :=
    hcode.sends_byte (by simp) rfl fun _ _ _ => rfl
  have hdata := hcode.sends_trackData (l := l) (s := s) (t := t) (s.trackLen t) 0 (Nat.zero_add _)
  rw [← List.range_eq_range'] at hdata
  cases raw with
  | false =>
    have hnum : State.sends cmd l s (.writeNum t) [t.wireNumber] (s.writePoint t 0) :=
      hcode.sends_byte (by simp) rfl fun rx tx moves => writeTrackFrom_wired rx tx moves 0
    exact (hesc.trans hnum).trans hdata
  | true =>
    have hnum : State.sends cmd l s (.writeNum t) [t.wireNumber] (.writeLen t) :=
      hcode.sends_byte (by simp) rfl fun _ _ _ => rfl
    have hcount : State.sends cmd l s (.writeLen t) [(s.tk t).len] (s.writePoint t 0) :=
      hcode.sends_byte (by simp) rfl fun rx tx moves => writeTrackFrom_wired rx tx moves 0
    exact ((hesc.trans hnum).trans hcount).trans hdata

/-- What a write sends behind its command frame, and then it awaits its confirmation (43_serial_protocol R292). -/
theorem sends_writeFrame (hconf : s.params.wconfLen ≠ 0) :
    State.sends cmd l s .writeStart (s.writeBody raw) (.reply s.params.wconfLen) := by
  have hstart : State.sends cmd l s .writeStart [0x73#8] (.writeEsc .t1) :=
    hcode.sends_byte (by simp) rfl fun _ _ _ => rfl
  have hend : State.sends cmd l s .writeEnd [0x3F#8] .writeFs := hcode.sends_byte (by simp) rfl fun _ _ _ => rfl
  have hfs : State.sends cmd l s .writeFs [0x1C#8] (.reply s.params.wconfLen) :=
    hcode.sends_byte (by simp) rfl fun _ _ _ => if_neg hconf
  exact (((hstart.trans hcode.sends_writeTrack).trans hcode.sends_writeTrack).trans hcode.sends_writeTrack).trans
    (hend.trans hfs)
end Pseudocode
end WriteFrame

section WriteRun
variable {s : State} {raw : Bool} {l : Locals} {rest : List Action}

/-- A write up to its confirmation: the frame is sent. -/
theorem runs_write_sends (hseq : s.seq = .txn (if raw then 0x00000035#32 else 0x00000034#32) .start l)
    (hconf : s.params.wconfLen ≠ 0)
    (hagenda : s.agenda = .block :: List.replicate (s.writeFrame raw).length .take ++ rest) :
    runs (1 + (s.writeFrame raw).length) s =
      .next ((s.clearReply.wired s.rx (s.sent ++ s.writeFrame raw) rest).blockedAt
        (if raw then 0x00000035#32 else 0x00000034#32) (.reply s.params.wconfLen) l) := by
  have hbegins : writeBegins (if raw then 0x6E#8 else 0x77#8) s = s.clearReply.blockedAt _ _ l :=
    moveTo_eq_blockedAt _ .start (.frame (commandFrame (if raw then 0x6E#8 else 0x77#8)) .esc) l hseq
  have hbody := (write_pseudocode raw).sends_writeFrame (l := l) (s := s.clearReply) hconf
  have hlen : (s.writeFrame raw).length = 2 + (s.clearReply.writeBody raw).length := by
    rw [writeFrame_eq, List.length_append]
    rfl
  have hmoves : s.agenda =
      .block :: .take :: .take :: (List.replicate (s.clearReply.writeBody raw).length .take ++ rest) := by
    rw [hagenda, hlen, List.replicate_add]
    rfl
  have hsends := hbody s.rx (s.sent ++ [0x1B#8, if raw then 0x6E#8 else 0x77#8]) rest
  rw [List.length_replicate, List.append_assoc, ← writeFrame_eq] at hsends
  rw [hlen, ← Nat.add_assoc, runs_add _ ((write_pseudocode raw).runs_frame hseq hmoves hbegins rfl)]
  exact hsends

/-- A write's confirmation: its last byte decides (43_serial_protocol R293). -/
theorem runs_write_confirmation {conf more tx : List Byte} (hconf : conf ≠ []) :
    runs conf.length ((s.wired (conf ++ more) tx (List.replicate conf.length .deliver ++ rest)).blockedAt
        (if raw then 0x00000035#32 else 0x00000034#32) (.reply conf.length) l) =
      .next (State.completeWith
        { s.wired more tx rest with csr := s.csr.afterResponse conf (conf.getLastD 0) }
        (statusVerdict (conf.getLastD 0))) := by
  obtain ⟨bytes, b, rfl⟩ := (List.eq_nil_or_concat' conf).resolve_left hconf
  have hlen : (bytes ++ [b]).length = bytes.length + 1 := by simp
  have hlast : (bytes ++ [b]).getLastD 0 = b := by simp
  rw [hlen, hlast, (write_pseudocode raw).runs_reply (b := b) (more := more) (rest := rest) bytes
    (by simp [State.wired]) (by rw [List.replicate_succ']; simp [State.wired]), afterResponse_eq]
  rfl
end WriteRun

/-- Settles O55: the frame of the three tracks, then the confirmation, whose last byte decides. -/
theorem writeTransactionsSendTheFrame : Obligations.WriteTransactionsSendTheFrame := by
  unfold Obligations.WriteTransactionsSendTheFrame
  intro s raw conf more rest hseq hlen hpos hfits hrx hagenda
  have hsends := runs_write_sends (rest := List.replicate conf.length .deliver ++ rest) hseq (by omega)
    (by rw [hagenda, List.append_assoc])
  rw [← hlen, hrx] at hsends
  refine ⟨_, (runs_add conf.length hsends).trans (runs_write_confirmation (List.ne_nil_of_length_pos hpos)), ?_, ?_,
    fun _ => rfl, rfl, rfl, rfl⟩
  · exact responseIs_of_pushAll hfits rfl rfl
  · exact endsWith_of_afterResponse rfl ⟨rfl, rfl, rfl⟩

end Sys2Proof.Machine

/-! ### Storing the bytes of a track -/

namespace Sys2Proof.Machine

theorem storeAll_append (m : Memory) (a : Nat) (xs ys : List Byte) :
    m.storeAll a (xs ++ ys) = (m.storeAll a xs).storeAll (a + xs.length) ys := by
  induction xs generalizing m a with
  | nil => rfl
  | cons x xs ih =>
    rw [List.cons_append, Memory.storeAll, Memory.storeAll, ih, List.length_cons]
    congr 1
    omega

theorem saturate_setWidth (w v : Nat) :
    (saturate w v).setWidth 16 = BitVec.ofNat 16 (min v (2 ^ w - 1)) := by
  have hpos : 0 < 2 ^ w := Nat.two_pow_pos w
  rw [← BitVec.toNat_inj, saturate, BitVec.toNat_setWidth, BitVec.toNat_ofNat, BitVec.toNat_ofNat,
    Nat.mod_eq_of_lt (b := 2 ^ w) (by omega)]

theorem writeTrk_append (s : State) (t : Track) (j : Nat) (xs ys : List Byte) :
    (s.writeTrk t j xs).writeTrk t (j + xs.length) ys = s.writeTrk t j (xs ++ ys) := by
  simp only [State.writeTrk, State.writeBytes, storeAll_append, trkAddr, Nat.add_assoc]

theorem setTk_tk_self (s : State) (t : Track) : s.setTk t (s.tk t) = s := by cases t <;> rfl

theorem State.setTk_setTk (s : State) (t : Track) (r r' : TrackRegs) : (s.setTk t r).setTk t r' = s.setTk t r' := by
  cases t <;> rfl

/-- The state once the bytes of a good track are in, the track empty before: stored up to its capacity and counted
(43_serial_protocol R280; `storeTrackByte_afterTrack`). -/
def State.afterTrack (s : State) (t : Track) (data : List Byte) : State :=
  (s.writeTrk t 0 (data.take (s.tk t).cap.toNat)).setTk t (tkAfterGoodTrack s.params (s.tk t) data)

section AfterTrack
variable {s : State} {t : Track} (data : List Byte)

theorem afterTrack_csr : (s.afterTrack t data).csr = s.csr.setTk t (tkAfterGoodTrack s.params (s.csr.tk t) data) := rfl

@[simp] theorem afterTrack_params : (s.afterTrack t data).params = s.params := rfl
@[simp] theorem afterTrack_busReply : (s.afterTrack t data).busReply = s.busReply := rfl
@[simp] theorem afterTrack_draws : (s.afterTrack t data).draws = s.draws := rfl

@[simp] theorem afterTrack_tk : (s.afterTrack t data).tk t = tkAfterGoodTrack s.params (s.tk t) data :=
  tk_setTk_same ..

theorem tkAfterGoodTrack_len (p : Params) (r : TrackRegs) :
    (tkAfterGoodTrack p r data).len.toNat = min r.cap.toNat data.length := by
  have := r.cap.isLt
  rw [tkAfterGoodTrack, BitVec.toNat_ofNat]
  omega

theorem tkAfterGoodTrack_wire {p : Params} (hw : p.wireW ≤ 16) (r : TrackRegs) :
    (tkAfterGoodTrack p r data).wire.toNat = min data.length (2 ^ p.wireW - 1) := by
  have hpow : 2 ^ p.wireW ≤ 2 ^ 16 := Nat.pow_le_pow_right (by omega) hw
  rw [tkAfterGoodTrack, BitVec.toNat_ofNat]
  omega

/-- One more byte counts one, and a full counter stays at its maximum (43_serial_protocol R280). -/
theorem tkAfterGoodTrack_wire_snoc {p : Params} (hw : p.wireW ≤ 16) (r : TrackRegs) (b : Byte) :
    (saturate p.wireW ((tkAfterGoodTrack p r data).wire.toNat + 1)).setWidth 16 =
      (tkAfterGoodTrack p r (data ++ [b])).wire := by
  rw [saturate_setWidth, tkAfterGoodTrack_wire data hw, tkAfterGoodTrack, List.length_append, List.length_singleton]
  congr 1
  omega

theorem tkAfterGoodTrack_len_of_room (p : Params) {r : TrackRegs} (h : data.length < r.cap.toNat) (b : Byte) :
    (tkAfterGoodTrack p r data).len + 1 = (tkAfterGoodTrack p r (data ++ [b])).len := by
  have := r.cap.isLt
  have h1 : (1 : BitVec 8).toNat = 1 := rfl
  rw [← BitVec.toNat_inj, BitVec.toNat_add, h1, tkAfterGoodTrack_len, tkAfterGoodTrack_len, List.length_append,
    List.length_singleton]
  omega

theorem tkAfterGoodTrack_len_of_full (p : Params) {r : TrackRegs} (h : r.cap.toNat ≤ data.length) (b : Byte) :
    (tkAfterGoodTrack p r data).len = (tkAfterGoodTrack p r (data ++ [b])).len := by
  rw [← BitVec.toNat_inj, tkAfterGoodTrack_len, tkAfterGoodTrack_len, List.length_append]
  omega

/-- An empty track has received no byte yet. -/
theorem afterTrack_nil (hlen : (s.tk t).len = 0) (hwire : (s.tk t).wire = 0) : s.afterTrack t [] = s := by
  have hr : tkAfterGoodTrack s.params (s.tk t) [] = { s.tk t with len := (s.tk t).len, wire := (s.tk t).wire } := by
    simp [tkAfterGoodTrack, hlen, hwire]
  rw [State.afterTrack, hr, List.take_nil]
  exact setTk_tk_self s t

/-- One more byte of track data is stored while the track has room, and counted (43_serial_protocol R280). -/
theorem storeTrackByte_afterTrack (hw : s.params.wireW ≤ 16) (b : Byte) :
    (s.afterTrack t data).storeTrackByte t b = s.afterTrack t (data ++ [b]) := by
  have hlen := tkAfterGoodTrack_len data s.params (s.tk t)
  have hroom : (tkAfterGoodTrack s.params (s.tk t) data).len < (tkAfterGoodTrack s.params (s.tk t) data).cap ↔
      data.length < (s.tk t).cap.toNat := by
    rw [BitVec.lt_def, hlen, show (tkAfterGoodTrack s.params (s.tk t) data).cap = (s.tk t).cap from rfl]
    omega
  have hwire : (saturate (s.afterTrack t data).params.wireW
      ((tkAfterGoodTrack s.params (s.tk t) data).wire.toNat + 1)).setWidth 16 = _ :=
    tkAfterGoodTrack_wire_snoc data hw (s.tk t) b
  rcases storeTrackByte_cases (s.afterTrack t data) t b with ⟨h, he⟩ | ⟨h, he⟩
  all_goals simp only [afterTrack_tk, hroom, hwire] at h he
  · have hfits : (data ++ [b]).length ≤ (s.tk t).cap.toNat := by simpa using h
    have hwrite := writeTrk_append s t 0 data [b]
    simp only [tkAfterGoodTrack_len_of_room data s.params h b, hlen, Nat.min_eq_right (Nat.le_of_lt h)] at he
    rw [he, State.afterTrack, State.afterTrack, List.take_of_length_le (Nat.le_of_lt h),
      List.take_of_length_le hfits, ← hwrite, Nat.zero_add]
    exact State.setTk_setTk (s := (s.writeTrk t 0 data).writeTrk t data.length [b]) ..
  · have hfull := Nat.not_lt.1 h
    simp only [tkAfterGoodTrack_len_of_full data s.params hfull b] at he
    rw [he, State.afterTrack, State.afterTrack, List.take_append_of_le_length hfull]
    exact State.setTk_setTk ..

/-- What was stored of a track is the start of its data. -/
theorem trk_afterTrack {k : Nat} (hk : k < min (s.tk t).cap.toNat data.length) :
    (s.afterTrack t data).trk t k = data.getD k 0 := by
  have hlt : k < (data.take (s.tk t).cap.toNat).length := by rwa [List.length_take]
  have h := trk_writeTrk s t 0 k _ hlt
  rw [Nat.zero_add, List.getElem_take] at h
  rw [List.getD_eq_getElem _ _ (by omega)]
  exact h

/-- A track stores no byte outside its own cells. -/
theorem readByte_afterTrack {a : Nat}
    (ha : a < trkAddr t 0 ∨ trkAddr t (min (s.tk t).cap.toNat data.length) ≤ a) :
    (s.afterTrack t data).readByte a = s.readByte a := by
  refine readByte_writeBytes_outside s _ a _ ?_
  rwa [List.length_take, show trkAddr t 0 = t.base from rfl]

/-- The tracks' windows are apart (20_memory R92). -/
theorem trk_afterTrack_other {u : Track} (hu : u ≠ t) {k : Nat} (hk : k < 256) :
    (s.afterTrack t data).trk u k = s.trk u k := by
  refine readByte_afterTrack data ?_
  have := (s.tk t).cap.isLt
  cases t
  all_goals
    cases u
    all_goals simp [trkAddr, Track.base] at hu ⊢
    all_goals omega
end AfterTrack

end Sys2Proof.Machine

/-! ### Receiving a read response -/

namespace Sys2Proof.Machine

theorem read_pseudocode {i : Instr} {rty : Bool} {cmd : Word} (hi : i ∈ [Instr.devReadiso rty, .devReadraw rty])
    (henc : encode i = .command cmd) :
    Pseudocode cmd (readBegins rty (readCode i)) (readAfterFrame rty (readCode i)) noPosition (readReceived rty)
      (readAttempt (readCode i)) where
  step {s _ _ _ _} hseq hagenda ha := by
    have hcode : firstCode s.params i ≠ none := by
      simp only [List.mem_cons, List.not_mem_nil, or_false] at hi
      rcases hi with rfl | rfl
      all_goals nofun
    rw [step_of_transaction henc hcode hseq hagenda ha, exec_read hi hseq, popNext]

section ReadResponse
variable {cmd : Word} {l : Locals} {s : State} {p : Point} {t : Track} {rty : Bool}

/-- Storing a byte does not look at the streams or the position. -/
theorem storeTrackByte_wired (rx tx : List Byte) (moves : List Action) (b : Byte) :
    ((s.wired rx tx moves).blockedAt cmd p l).storeTrackByte t b =
      ((s.storeTrackByte t b).wired rx tx moves).blockedAt cmd p l := by
  have htk : ((s.wired rx tx moves).blockedAt cmd p l).tk t = s.tk t := by cases t <;> rfl
  simp only [State.storeTrackByte, htk]
  split
  all_goals
    cases t
    all_goals rfl

/-- A byte that is not START leaves the scan going while it lasts (43_serial_protocol R277). -/
theorem readReceived_scan {b : Byte} {k : Nat} (hb : b ≠ 0x73#8) (hk : k + 1 < s.params.startScan) :
    readReceived rty (.scan k) b s = s.moveTo (.scan (k + 1)) := by
  have hstart : b ≠ startByte := hb
  simp [readReceived, hstart, hk]

/-- A byte that is neither END nor an error delimiter is track data (43_serial_protocol R279). -/
theorem readReceived_trackData {b : Byte} (hend : b ≠ 0x3F#8) (hdelim : b ∉ s.params.errDelims) :
    readReceived rty (.trackData t) b s = (s.storeTrackByte t b).moveTo (.trackData t) := by
  have hend' : b ≠ endByte := hend
  simp [readReceived, hend', hdelim]

namespace Pseudocode
variable {begins : State → State} {afterFrame : FrameWord → State → State} {sent : Point → State → State}
  {settled : State → State} (hcode : Pseudocode cmd begins afterFrame sent (readReceived rty) settled)
include hcode

/-- The bytes before START are discarded while the scan lasts (43_serial_protocol R277). -/
theorem receives_start (junk : List Byte) (k : Nat) (hscan : k + junk.length < s.params.startScan)
    (hjunk : 0x73#8 ∉ junk) : State.receives cmd l s (.scan k) (junk ++ [0x73#8]) s (.headerEsc .t1) := by
  induction junk generalizing k with
  | nil => exact hcode.receives_byte rfl fun _ _ _ => rfl
  | cons b junk ih =>
    rw [List.mem_cons, not_or] at hjunk
    rw [List.length_cons] at hscan
    obtain ⟨hb, hjunk⟩ := hjunk
    have hbyte : State.receives cmd l s (.scan k) [b] s (.scan (k + 1)) := by
      have hnext : k + 1 < s.params.startScan := by omega
      exact hcode.receives_byte rfl fun _ _ _ => readReceived_scan (Ne.symm hb) hnext
    exact hbyte.trans (ih (k + 1) (by omega) hjunk)

/-- Track data is stored byte by byte (43_serial_protocol R279, R280). -/
theorem receives_trackData (hw : s.params.wireW ≤ 16) (data before : List Byte) (hdata : isTrackData s.params data) :
    State.receives cmd l (s.afterTrack t before) (.trackData t) data (s.afterTrack t (before ++ data))
      (.trackData t) := by
  induction data generalizing before with
  | nil =>
    rw [List.append_nil]
    exact leadsTo_refl
  | cons b data ih =>
    obtain ⟨⟨hend, hdelim⟩, hrest⟩ := List.forall_mem_cons.1 hdata
    have hbyte : State.receives cmd l (s.afterTrack t before) (.trackData t) [b] (s.afterTrack t (before ++ [b]))
        (.trackData t) := by
      refine hcode.receives_byte rfl fun rx tx moves => ?_
      have hstore := readReceived_trackData (s := ((s.afterTrack t before).wired rx tx moves).blockedAt cmd
        (.trackData t) l) (rty := rty) (t := t) hend hdelim
      rw [hstore, storeTrackByte_wired, storeTrackByte_afterTrack before hw]
      rfl
    rw [List.append_cons]
    exact hbyte.trans (ih (before ++ [b]) hrest)

/-- A good track: its header matches, its data is stored, and END leads on (30_encoding R131, 43_serial_protocol R278 to
R281). -/
theorem receives_goodTrack (hw : s.params.wireW ≤ 16) (hlen : (s.tk t).len = 0) (hwire : (s.tk t).wire = 0)
    (htrailer : s.params.readTrailerLen ≠ 0) {data : List Byte} (hdata : isTrackData s.params data) :
    State.receives cmd l s (.headerEsc t) (wireTrack t data) (s.afterTrack t data)
      (pointAfterTrack s.params false t) := by
  have hesc : State.receives cmd l s (.headerEsc t) [0x1B#8] s (.headerNum t) :=
    hcode.receives_byte rfl fun _ _ _ => rfl
  have hnum : State.receives cmd l s (.headerNum t) [t.wireNumber] s (.trackData t) :=
    hcode.receives_byte rfl fun _ _ _ => if_pos rfl
  have hbytes := hcode.receives_trackData (l := l) (t := t) hw data [] hdata
  rw [afterTrack_nil hlen hwire, List.nil_append] at hbytes
  have hend : State.receives cmd l (s.afterTrack t data) (.trackData t) [0x3F#8] (s.afterTrack t data)
      (pointAfterTrack s.params false t) := by
    refine hcode.receives_byte rfl fun rx tx moves => ?_
    cases t with
    | t1 | t2 => rfl
    | t3 => exact if_neg htrailer
  exact ((hesc.trans hnum).trans hbytes).trans hend

/-- Trailer bytes before the last go to the response buffer (43_serial_protocol R284). -/
theorem receives_trailer (bytes : List Byte) :
    State.receives cmd l s (.reply (bytes.length + 1)) bytes (s.withCsr (s.csr.pushAll bytes)) (.reply 1) := by
  induction bytes generalizing s with
  | nil => exact leadsTo_refl
  | cons b bytes ih =>
    have hbyte : State.receives cmd l s (.reply (bytes.length + 1 + 1)) [b] (s.withCsr (s.csr.push b))
        (.reply (bytes.length + 1)) := by
      refine hcode.receives_byte rfl fun rx tx moves => ?_
      simp only [readReceived, replyReceived, appendReply_eq_push]
      rw [if_neg (by omega)]
      rfl
    exact hbyte.trans ih

/-- Everything of a good response up to its trailer: the three tracks are stored (30_encoding R131). -/
theorem receives_goodTracks {junk d1 d2 d3 : List Byte} (hw : s.params.wireW ≤ 16)
    (hempty : ∀ u, (s.tk u).len = 0 ∧ (s.tk u).wire = 0) (htrailer : s.params.readTrailerLen ≠ 0)
    (hscan : junk.length < s.params.startScan) (hjunk : 0x73#8 ∉ junk) (h1 : isTrackData s.params d1)
    (h2 : isTrackData s.params d2) (h3 : isTrackData s.params d3) :
    State.receives cmd l s (.scan 0) (junk ++ [0x73#8] ++ wireTrack .t1 d1 ++ wireTrack .t2 d2 ++ wireTrack .t3 d3)
      (((s.afterTrack .t1 d1).afterTrack .t2 d2).afterTrack .t3 d3) (.reply s.params.readTrailerLen) := by
  have hstart := hcode.receives_start (l := l) (s := s) junk 0 (by omega) hjunk
  have htrack1 := hcode.receives_goodTrack (l := l) (t := .t1) hw (hempty .t1).1 (hempty .t1).2 htrailer h1
  have htrack2 := hcode.receives_goodTrack (l := l) (s := s.afterTrack .t1 d1) (t := .t2) hw (hempty .t2).1
    (hempty .t2).2 htrailer h2
  have htrack3 := hcode.receives_goodTrack (l := l) (s := (s.afterTrack .t1 d1).afterTrack .t2 d2) (t := .t3) hw
    (hempty .t3).1 (hempty .t3).2 htrailer h3
  exact ((hstart.trans htrack1).trans htrack2).trans htrack3

end Pseudocode

/-- Without retry and without a track error the last trailer byte decides (43_serial_protocol R285). -/
theorem readFinish_of_no_trackError (h : s.csr.status.tkerr = 0) (b : Byte) :
    readFinish false b s = (s.setLaststat b).completeWith (statusVerdict b) := by
  have htkerr : (s.setLaststat b).csr.status.tkerr = 0 := h
  have hok : okByte = 0x30#8 := rfl
  simp only [readFinish, endAttempt, statusVerdict, htkerr, hok]
  by_cases hb : b = 0x30#8
  · simp [hb]
  · simp [hb]

theorem pushAll_snoc (c : Csr) (bytes : List Byte) (b : Byte) :
    c.pushAll (bytes ++ [b]) = (c.pushAll bytes).push b := by
  simp [Csr.pushAll]

theorem readReceived_lastTrailer (h : s.csr.status.tkerr = 0) (b : Byte) :
    readReceived false (.reply 1) b s =
      ((s.withCsr (s.csr.push b)).setLaststat b).completeWith (statusVerdict b) := by
  simp only [readReceived, replyReceived, le_refl, if_true, appendReply_eq_push]
  exact readFinish_of_no_trackError (s := s.withCsr (s.csr.push b)) h b

section ReadRun
variable {begins : State → State} {afterFrame : FrameWord → State → State} {sent : Point → State → State}
  {settled : State → State} {code : Byte} {rest : List Action}

/-- The trailer of a read without retry and without a track error: its last byte decides (43_serial_protocol R284,
R285). -/
theorem runs_read_trailer (hcode : Pseudocode cmd begins afterFrame sent (readReceived false) settled)
    (htkerr : s.csr.status.tkerr = 0) {trailer more tx : List Byte} (htrailer : trailer ≠ []) :
    runs trailer.length ((s.wired (trailer ++ more) tx (List.replicate trailer.length .deliver ++ rest)).blockedAt
        cmd (.reply trailer.length) l) =
      .next (((s.wired more tx rest).withCsr (s.csr.afterResponse trailer (trailer.getLastD 0))).completeWith
        (statusVerdict (trailer.getLastD 0))) := by
  obtain ⟨bytes, b, rfl⟩ := (List.eq_nil_or_concat' trailer).resolve_left htrailer
  have hlast : (bytes ++ [b]).getLastD 0 = b := by simp
  have hbytes := hcode.receives_trailer (l := l) (s := s) bytes (b :: more) tx (.deliver :: rest)
  rw [List.length_replicate] at hbytes
  have hkept : (s.csr.pushAll bytes).status = s.csr.status := by rw [pushAll_eq]
  rw [List.length_append, List.length_singleton, List.replicate_succ', List.append_assoc, List.append_assoc,
    List.singleton_append, List.singleton_append, runs_add 1 hbytes,
    List.append_nil, runs_one (hcode.step_deliver_wired rfl), hlast, afterResponse_eq, pushAll_snoc,
    readReceived_lastTrailer]
  · rfl
  · exact (congrArg Status.tkerr hkept).trans htkerr

/-- A read up to its START scan: its command is sent, the tracks and the response buffer emptied. -/
theorem runs_read_frame
    (hcode : Pseudocode cmd (readBegins false code) (readAfterFrame false code) noPosition (readReceived false)
      (readAttempt code))
    (hseq : s.seq = .txn cmd .start l) (hscan : s.params.startScan ≠ 0)
    (hagenda : s.agenda = .block :: .take :: .take :: rest) :
    runs 3 s = .next ((s.clearForRead.wired s.rx (s.sent ++ [0x1B#8, code]) rest).blockedAt cmd (.scan 0) l) := by
  have hbegins : readBegins false code s = s.clearForRead.blockedAt cmd (.frame (commandFrame code) .esc) l :=
    moveTo_eq_blockedAt _ .start _ l hseq
  rw [hcode.runs_frame hseq hagenda hbegins rfl, readAfterFrame_eq, if_neg (by simp), startScan_of_pos]
  · rfl
  · exact hscan
end ReadRun
end ReadResponse

end Sys2Proof.Machine

/-! ### A read of a good response -/

namespace Sys2Proof.Machine

theorem sameSurroundings_trans {s t u : State} (h₁ : s.sameSurroundings t) (h₂ : t.sameSurroundings u) :
    s.sameSurroundings u := by
  obtain ⟨hp₁, hb₁, hd₁⟩ := h₁
  obtain ⟨hp₂, hb₂, hd₂⟩ := h₂
  exact ⟨hp₂.trans hp₁, hb₂.trans hb₁, hd₂.trans hd₁⟩

/-- The state once the three tracks of a good response are in (43_serial_protocol R276, R280). -/
def State.afterGoodTracks (s : State) (d1 d2 d3 : List Byte) : State :=
  ((s.clearForRead.afterTrack .t1 d1).afterTrack .t2 d2).afterTrack .t3 d3

section GoodTracks
variable {s : State} (d1 d2 d3 : List Byte)

theorem afterGoodTracks_csr :
    (s.afterGoodTracks d1 d2 d3).csr =
      { s.csr with
        tk1 := tkAfterGoodTrack s.params s.csr.tk1 d1, tk2 := tkAfterGoodTrack s.params s.csr.tk2 d2
        tk3 := tkAfterGoodTrack s.params s.csr.tk3 d3
        status := { s.csr.status with tkerr := 0 }
        resplen := 0 } := by
  simp only [State.afterGoodTracks, afterTrack_csr, afterTrack_params, Csr.setTk, Csr.tk, State.clearForRead,
    State.clearReply, withCsr_csr, withCsr_params, tkAfterGoodTrack]

theorem afterGoodTracks_sameSurroundings : s.sameSurroundings (s.afterGoodTracks d1 d2 d3) :=
  sameSurroundings_trans (t := s.clearForRead) ⟨rfl, rfl, rfl⟩
    ⟨by simp [State.afterGoodTracks], by simp [State.afterGoodTracks], by simp [State.afterGoodTracks]⟩

/-- The response buffer was emptied at the start of the attempt. -/
theorem afterGoodTracks_clearReply :
    { (s.afterGoodTracks d1 d2 d3).csr with resplen := 0 } = (s.afterGoodTracks d1 d2 d3).csr := by
  rw [afterGoodTracks_csr]

theorem afterGoodTracks_trk1 {k : Nat} (hk : k < (tkAfterGoodTrack s.params s.csr.tk1 d1).len.toNat) :
    (s.afterGoodTracks d1 d2 d3).trk .t1 k = d1.getD k 0 := by
  have hbyte : k < 256 := lt_trans hk (BitVec.isLt _)
  rw [tkAfterGoodTrack_len] at hk
  rw [State.afterGoodTracks, trk_afterTrack_other d3 (by simp) hbyte, trk_afterTrack_other d2 (by simp) hbyte]
  exact trk_afterTrack (s := s.clearForRead) d1 hk

theorem afterGoodTracks_trk2 {k : Nat} (hk : k < (tkAfterGoodTrack s.params s.csr.tk2 d2).len.toNat) :
    (s.afterGoodTracks d1 d2 d3).trk .t2 k = d2.getD k 0 := by
  have hbyte : k < 256 := lt_trans hk (BitVec.isLt _)
  rw [tkAfterGoodTrack_len] at hk
  rw [State.afterGoodTracks, trk_afterTrack_other d3 (by simp) hbyte]
  exact trk_afterTrack (s := s.clearForRead.afterTrack .t1 d1) d2 hk

theorem afterGoodTracks_trk3 {k : Nat} (hk : k < (tkAfterGoodTrack s.params s.csr.tk3 d3).len.toNat) :
    (s.afterGoodTracks d1 d2 d3).trk .t3 k = d3.getD k 0 := by
  rw [tkAfterGoodTrack_len] at hk
  exact trk_afterTrack (s := (s.clearForRead.afterTrack .t1 d1).afterTrack .t2 d2) d3 hk

/-- No byte outside the cells counted as stored is written. -/
theorem afterGoodTracks_readByte {a : Nat}
    (h1 : a < trkAddr .t1 0 ∨ trkAddr .t1 (tkAfterGoodTrack s.params s.csr.tk1 d1).len.toNat ≤ a)
    (h2 : a < trkAddr .t2 0 ∨ trkAddr .t2 (tkAfterGoodTrack s.params s.csr.tk2 d2).len.toNat ≤ a)
    (h3 : a < trkAddr .t3 0 ∨ trkAddr .t3 (tkAfterGoodTrack s.params s.csr.tk3 d3).len.toNat ≤ a) :
    (s.afterGoodTracks d1 d2 d3).readByte a = s.readByte a := by
  rw [tkAfterGoodTrack_len] at h1 h2 h3
  calc (s.afterGoodTracks d1 d2 d3).readByte a
      = ((s.clearForRead.afterTrack .t1 d1).afterTrack .t2 d2).readByte a := readByte_afterTrack d3 h3
    _ = (s.clearForRead.afterTrack .t1 d1).readByte a := readByte_afterTrack d2 h2
    _ = s.clearForRead.readByte a := readByte_afterTrack d1 h1
    _ = s.readByte a := rfl
end GoodTracks

/-- The state once the trailer of a good response is in too, the bytes behind it still queued. -/
def State.afterGoodRead (s : State) (code : Byte) (d1 d2 d3 trailer more : List Byte) (rest : List Action) : State :=
  (((s.afterGoodTracks d1 d2 d3).wired more (s.sent ++ [0x1B#8, code]) rest).withCsr
    ((s.afterGoodTracks d1 d2 d3).csr.afterResponse trailer (trailer.getLastD 0))).completeWith
      (statusVerdict (trailer.getLastD 0))

/-- The whole read: its frame, the scan and the three tracks, and the trailer. -/
theorem runs_goodRead {s : State} {cmd : Word} {code : Byte} {l : Locals} {junk d1 d2 d3 trailer more : List Byte}
    {rest : List Action}
    (hcode : Pseudocode cmd (readBegins false code) (readAfterFrame false code) noPosition (readReceived false)
      (readAttempt code))
    (hseq : s.seq = .txn cmd .start l) (hw : s.params.wireW ≤ 16) (hscan : junk.length < s.params.startScan)
    (hjunk : 0x73#8 ∉ junk) (h1 : isTrackData s.params d1) (h2 : isTrackData s.params d2)
    (h3 : isTrackData s.params d3) (hlen : trailer.length = s.params.readTrailerLen) (hpos : 1 ≤ trailer.length)
    {resp : List Byte}
    (hresp : resp = junk ++ [0x73#8] ++ wireTrack .t1 d1 ++ wireTrack .t2 d2 ++ wireTrack .t3 d3 ++ trailer)
    (hrx : s.rx = resp ++ more)
    (hagenda : s.agenda = [Action.block, .take, .take] ++ List.replicate resp.length .deliver ++ rest) :
    runs (3 + resp.length) s = .next (s.afterGoodRead code d1 d2 d3 trailer more rest) := by
  have hempty (u : Track) : (s.clearForRead.tk u).len = 0 ∧ (s.clearForRead.tk u).wire = 0 := by
    cases u
    all_goals exact ⟨rfl, rfl⟩
  have hframe := runs_read_frame hcode hseq (by omega) hagenda
  have htracks := hcode.receives_goodTracks (l := l) (s := s.clearForRead) hw hempty
    (show s.params.readTrailerLen ≠ 0 by omega) hscan hjunk h1 h2 h3 (trailer ++ more) (s.sent ++ [0x1B#8, code])
    (List.replicate trailer.length .deliver ++ rest)
  have htrailer := runs_read_trailer (l := l) (s := s.afterGoodTracks d1 d2 d3) (more := more) (rest := rest)
    (tx := s.sent ++ [0x1B#8, code]) hcode rfl (List.ne_nil_of_length_pos hpos)
  rw [List.length_replicate, ← List.append_assoc, ← hresp, ← List.append_assoc, ← List.replicate_add,
    ← List.length_append, ← hresp, List.append_nil,
    show s.clearForRead.params.readTrailerLen = _ from hlen.symm] at htracks
  rw [hrx] at hframe
  have hsum := congrArg List.length hresp
  rw [List.length_append] at hsum
  rw [runs_add _ hframe]
  exact (congrArg (runs · _) hsum).trans ((runs_add _ htracks).trans htrailer)

section GoodRead
variable {s : State} {code : Byte} {d1 d2 d3 trailer more : List Byte} {rest : List Action}

/-- The registers of the tracks, with the response and the verdict. -/
theorem afterGoodRead_endsWith_tracks :
    (s.afterGoodTracks d1 d2 d3).endsWith (s.afterGoodRead code d1 d2 d3 trailer more rest)
      { (s.afterGoodTracks d1 d2 d3).csr with
        resplen := (s.afterGoodRead code d1 d2 d3 trailer more rest).csr.resplen
        respb := (s.afterGoodRead code d1 d2 d3 trailer more rest).csr.respb
        status := { (s.afterGoodTracks d1 d2 d3).csr.status with laststat := trailer.getLastD 0 } }
      (statusVerdict (trailer.getLastD 0)) := by
  refine endsWith_of_afterResponse (resp := trailer) ?_ ⟨by simp, by simp, by simp⟩
  rw [afterGoodTracks_clearReply, withCsr_csr]

theorem afterGoodRead_endsWith :
    s.endsWith (s.afterGoodRead code d1 d2 d3 trailer more rest)
      { s.csr with
        tk1 := tkAfterGoodTrack s.params s.csr.tk1 d1, tk2 := tkAfterGoodTrack s.params s.csr.tk2 d2
        tk3 := tkAfterGoodTrack s.params s.csr.tk3 d3
        resplen := (s.afterGoodRead code d1 d2 d3 trailer more rest).csr.resplen
        respb := (s.afterGoodRead code d1 d2 d3 trailer more rest).csr.respb
        status := { s.csr.status with tkerr := 0, laststat := trailer.getLastD 0 } }
      (statusVerdict (trailer.getLastD 0)) := by
  obtain ⟨hcsr, hseq, hs⟩ := afterGoodRead_endsWith_tracks (s := s) (code := code) (d1 := d1) (d2 := d2) (d3 := d3)
    (trailer := trailer) (more := more) (rest := rest)
  refine ⟨hcsr.trans ?_, hseq, sameSurroundings_trans (afterGoodTracks_sameSurroundings d1 d2 d3) hs⟩
  simp only [afterGoodTracks_csr]

theorem afterGoodRead_tk (u : Track) :
    (s.afterGoodRead code d1 d2 d3 trailer more rest).tk u = (s.afterGoodTracks d1 d2 d3).csr.tk u := by
  rw [State.tk, afterGoodRead_endsWith_tracks.1]
  cases u <;> rfl

theorem afterGoodRead_responseIs (hfits : trailer.length ≤ 16) :
    s.responseIs (s.afterGoodRead code d1 d2 d3 trailer more rest) trailer := by
  have h : (s.afterGoodTracks d1 d2 d3).responseIs (s.afterGoodRead code d1 d2 d3 trailer more rest) trailer := by
    refine responseIs_of_pushAll hfits ?_ ?_
    all_goals
      rw [afterGoodTracks_clearReply]
      rfl
  exact h

theorem afterGoodRead_readByte (a : Nat) :
    (s.afterGoodRead code d1 d2 d3 trailer more rest).readByte a = (s.afterGoodTracks d1 d2 d3).readByte a :=
  readByte_of_mem_eq (by simp [State.afterGoodRead]) a

theorem afterGoodRead_trk (u : Track) (k : Nat) :
    (s.afterGoodRead code d1 d2 d3 trailer more rest).trk u k = (s.afterGoodTracks d1 d2 d3).trk u k :=
  afterGoodRead_readByte _

end GoodRead

/-- Settles O59: the frame, the scan and the three tracks, and then the trailer, whose last byte decides. -/
theorem goodReadStoresTheTracks : Obligations.GoodReadStoresTheTracks := by
  unfold Obligations.GoodReadStoresTheTracks
  intro s cmd code pre d1 d2 d3 trailer more rest resp hcmd hseq hw hpre hstart h1 h2 h3 hlen hpos hfits hresp hrx
    hagenda
  have hcode : Pseudocode cmd (readBegins false code) (readAfterFrame false code) noPosition (readReceived false)
      (readAttempt code) := by
    simp only [List.mem_cons, List.not_mem_nil, or_false, Prod.mk.injEq] at hcmd
    rcases hcmd with ⟨rfl, rfl⟩ | ⟨rfl, rfl⟩
    · exact read_pseudocode (i := .devReadiso false) (by simp) rfl
    · exact read_pseudocode (i := .devReadraw false) (by simp) rfl
  have hrun := runs_goodRead hcode hseq hw hpre hstart h1 h2 h3 hlen hpos hresp hrx hagenda
  refine ⟨_, hrun, afterGoodRead_responseIs hfits, afterGoodRead_endsWith, rfl, rfl, rfl,
    fun k hk => ?_, fun k hk => ?_, fun k hk => ?_, fun a ha => ?_⟩
  · rw [afterGoodRead_tk, afterGoodTracks_csr] at hk
    rw [afterGoodRead_trk]
    exact afterGoodTracks_trk1 d1 d2 d3 hk
  · rw [afterGoodRead_tk, afterGoodTracks_csr] at hk
    rw [afterGoodRead_trk]
    exact afterGoodTracks_trk2 d1 d2 d3 hk
  · rw [afterGoodRead_tk, afterGoodTracks_csr] at hk
    rw [afterGoodRead_trk]
    exact afterGoodTracks_trk3 d1 d2 d3 hk
  · simp only [afterGoodRead_tk, afterGoodTracks_csr] at ha
    rw [afterGoodRead_readByte]
    exact afterGoodTracks_readByte d1 d2 d3 (ha .t1) (ha .t2) (ha .t3)

end Sys2Proof.Machine

/-! ### A BitBuffer operation runs its body (40_bitbuffer) -/

namespace Sys2Proof.Machine

theorem selectTrack_field (t : Track) : selectTrack t.field = some t := by cases t <;> rfl

/-- An operation on a track ends with what its body answers. -/
theorem performOnTrack_field {s u : State} {t : Track} {e : ErrCode} {body : Track → State → State × ErrCode}
    (h : body t s = (u, e)) : s.performOnTrack t.field body = u.completeWith e := by
  rw [performOnTrack_of_select (selectTrack_field t), h]

section BitBufferRuns
variable {s : State} (t : Track)

theorem exec_getbit_of_stored (h : s.csr.bitidx.toNat < 8 * s.trackLen t) :
    exec (.getbit t.field) s = .next
      ((s.withCsr { s.csr with bitval := s.trackBit t s.csr.bitidx.toNat }).completeWith .none) :=
  congrArg Host.Outcome.next (performOnTrack_field (body := getbitBody) (if_neg (Nat.not_le.2 h)))

theorem exec_getbit_of_past (h : 8 * s.trackLen t ≤ s.csr.bitidx.toNat) :
    exec (.getbit t.field) s = .next (s.completeWith .rangeError) :=
  congrArg Host.Outcome.next (performOnTrack_field (body := getbitBody) (if_pos h))

theorem exec_setbit_of_stored (h : s.csr.bitidx.toNat < 8 * s.trackLen t) :
    exec (.setbit t.field) s = .next
      ((s.writeTrk t (s.csr.bitidx.toNat / 8)
        [setBitMsbFirst (s.trk t (s.csr.bitidx.toNat / 8)) s.csr.bitidx.toNat s.csr.bitval]).completeWith .none) :=
  congrArg Host.Outcome.next (performOnTrack_field (body := setbitBody) (if_neg (Nat.not_le.2 h)))

theorem exec_setbit_of_past (h : 8 * s.trackLen t ≤ s.csr.bitidx.toNat) :
    exec (.setbit t.field) s = .next (s.completeWith .rangeError) :=
  congrArg Host.Outcome.next (performOnTrack_field (body := setbitBody) (if_pos h))

theorem exec_revtrack : exec (.revtrack t.field) s = .next ((revtrackBody t s).1.completeWith .none) :=
  congrArg Host.Outcome.next (performOnTrack_field (body := revtrackBody) rfl)

theorem exec_unpack : exec (.unpack t.field) s = .next ((unpackBody t s).1.completeWith .none) :=
  congrArg Host.Outcome.next (performOnTrack_field (body := unpackBody) rfl)

theorem exec_revbits (h : s.csr.bslen.toNat ≤ s.params.bsMax) :
    exec .revbits s = .next ((revbitsBody s).1.completeWith .none) :=
  congrArg Host.Outcome.next (performIf_of_legal (decide_eq_true h) revbitsBody)
end BitBufferRuns

/-! ### The bits of bytes (40_bitbuffer R160, R161) -/

theorem rev8_rev8 (b : Byte) : rev8 (rev8 b) = b := by
  apply BitVec.eq_of_getLsbD_eq
  intro k hk
  rw [rev8_getLsbD _ k hk, rev8_getLsbD _ (7 - k) (by omega), Nat.sub_sub_self (by omega)]

@[simp] theorem length_flatMap_bitsOfByte (bytes : List Byte) :
    (bytes.flatMap bitsOfByte).length = 8 * bytes.length := by
  simp [List.length_flatMap, Nat.mul_comm]

/-- 40_bitbuffer R160: bit `k` of a byte sequence is in byte `k / 8`, MSB-first. -/
theorem getElem?_flatMap_bitsOfByte (bytes : List Byte) (k : Nat) :
    (bytes.flatMap bitsOfByte)[k]? = bytes[k / 8]?.map (bitMsbFirst · k) := by
  induction bytes generalizing k with
  | nil => simp
  | cons b bytes ih =>
    rw [List.flatMap_cons, List.getElem?_append, bitsOfByte_length]
    split
    next hlt =>
      rw [Nat.div_eq_of_lt hlt, List.getElem?_eq_getElem (by simpa using hlt), bitsOfByte_getElem]
      simp [bitMsbFirst, Nat.mod_eq_of_lt hlt]
    next hge =>
      obtain ⟨j, rfl⟩ := Nat.exists_eq_add_of_le' (Nat.not_lt.1 hge)
      rw [Nat.add_sub_cancel, ih, Nat.add_div_right j (by omega), List.getElem?_cons_succ]
      simp [bitMsbFirst]

/-! ### What the bodies store -/

/-- Stored bytes change no byte beyond them. -/
theorem sameMemoryOutside_writeBytes {s : State} {a n : Nat} {bs : List Byte} (hn : bs.length = n) :
    s.sameMemoryOutside (s.writeBytes a bs) a n :=
  fun c hc => readByte_writeBytes_outside s a c bs (hn ▸ hc)

section BitBufferBodies
variable {s : State} (t : Track)

theorem revtrackBody_sameMemoryOutside :
    s.sameMemoryOutside (revtrackBody t s).1 (trkAddr t 0) (s.trackLen t) :=
  sameMemoryOutside_writeBytes (by simp)

/-- 40_bitbuffer R162, byte by byte. -/
theorem trk_revtrackBody {j : Nat} (hj : j < s.trackLen t) :
    (revtrackBody t s).1.trk t j = rev8 (s.trk t (s.trackLen t - 1 - j)) := by
  have h := trk_writeTrk s t 0 j ((s.trackBytes t).reverse.map rev8) (by simpa using hj)
  rw [Nat.zero_add] at h
  exact h.trans (by simp [State.trackBytes])

/-- 40_bitbuffer R170: reversed bytes in reversed order are the reversed bitstream. -/
theorem trackBit_revtrackBody {i : Nat} (hi : i < 8 * s.trackLen t) :
    (revtrackBody t s).1.trackBit t i = s.trackBit t (8 * s.trackLen t - 1 - i) := by
  have hbyte : (8 * s.trackLen t - 1 - i) / 8 = s.trackLen t - 1 - i / 8 := by omega
  have hbit : 7 - (8 * s.trackLen t - 1 - i) % 8 = 7 - (7 - i % 8) := by omega
  rw [State.trackBit, State.trackBit, trk_revtrackBody t (by omega), rev8_getLsbD _ _ (by omega), hbyte, hbit]

theorem unpackBody_sameMemoryOutside :
    s.sameMemoryOutside (unpackBody t s).1 (bsAddr 0) (8 * s.trackLen t) :=
  sameMemoryOutside_writeBytes
    (by rw [List.length_map, length_flatMap_bitsOfByte, trackBytes_length])

theorem bs_unpackBody {k : Nat} (hk : k < 8 * s.trackLen t) : (unpackBody t s).1.bs k = s.trackBit t k := by
  have hlt : k < ((s.trackBytes t).flatMap bitsOfByte).length := by
    rwa [length_flatMap_bitsOfByte, trackBytes_length]
  have hbyte : (s.trackBytes t)[k / 8]? = some (s.trk t (k / 8)) := by
    simp [State.trackBytes, List.getElem?_range (show k / 8 < s.trackLen t by omega)]
  have hbit := getElem?_flatMap_bitsOfByte (s.trackBytes t) k
  rw [hbyte, List.getElem?_eq_getElem hlt] at hbit
  exact (bs_writeBs s k _ hlt).trans (Option.some.inj hbit)

/-- The number of bits of a track fits `BSLEN`. -/
theorem unpackBody_bslen : (unpackBody t s).1.csr.bslen.toNat = 8 * s.trackLen t := by
  have hlen : s.trackLen t < 256 := (s.tk t).len.isLt
  exact Nat.mod_eq_of_lt (by omega)

theorem revbitsBody_sameMemoryOutside : s.sameMemoryOutside (revbitsBody s).1 (bsAddr 0) s.csr.bslen.toNat :=
  sameMemoryOutside_writeBytes (by simp)

theorem bs_revbitsBody {k : Nat} (hk : k < s.csr.bslen.toNat) :
    (revbitsBody s).1.bs k = s.bs (s.csr.bslen.toNat - 1 - k) :=
  (bs_writeBs s k s.bitstring.reverse (by simpa using hk)).trans (by simp [State.bitstring])
end BitBufferBodies

/-! ### Each operation once -/

/-- Settles O27: the index is inside the stored bits or past them. -/
theorem getbitReadsOneBit : Obligations.GetbitReadsOneBit := by
  unfold Obligations.GetbitReadsOneBit
  intro s t
  rcases Nat.lt_or_ge s.csr.bitidx.toNat (8 * s.trackLen t) with h | h
  · exact ⟨_, exec_getbit_of_stored t h, fun _ => rfl, ⟨rfl, rfl, rfl⟩,
      fun _ => completeWith_endsWith (u := s.withCsr _) ⟨rfl, rfl, rfl⟩ .none,
      fun hpast => absurd hpast (Nat.not_le.2 h)⟩
  · exact ⟨_, exec_getbit_of_past t h, fun _ => rfl, ⟨rfl, rfl, rfl⟩,
      fun hstored => absurd hstored (Nat.not_lt.2 h),
      fun _ => completeWith_endsWith ⟨rfl, rfl, rfl⟩ .rangeError⟩

/-- Settles O28: inside the stored bits the one byte at the index is written, with one bit of it replaced. -/
theorem setbitWritesOneBit : Obligations.SetbitWritesOneBit := by
  unfold Obligations.SetbitWritesOneBit
  intro s t
  rcases Nat.lt_or_ge s.csr.bitidx.toNat (8 * s.trackLen t) with h | h
  · refine ⟨_, exec_setbit_of_stored t h, ⟨rfl, rfl, rfl⟩, fun _ => ⟨?_, ?_, fun k hk => ?_⟩,
      fun hpast => absurd hpast (Nat.not_le.2 h)⟩
    · exact completeWith_endsWith (u := s.writeTrk t _ _) ⟨rfl, rfl, rfl⟩ .none
    · exact sameMemoryOutside_writeBytes (bs := [_]) rfl
    · rw [← setBitMsbFirst_getLsbD _ _ k _ hk]
      exact congrArg (·.getLsbD k) (trk_writeTrk s t (s.csr.bitidx.toNat / 8) 0 [_] Nat.zero_lt_one)
  · exact ⟨_, exec_setbit_of_past t h, ⟨rfl, rfl, rfl⟩, fun hstored => absurd hstored (Nat.not_lt.2 h),
      fun _ => ⟨completeWith_endsWith ⟨rfl, rfl, rfl⟩ .rangeError, fun _ => rfl⟩⟩

/-- Settles O29: the byte is `rev8` of `BYTE_IN`, which reflects it bit by bit. -/
theorem revbyteReflectsTheByte : Obligations.RevbyteReflectsTheByte := by
  unfold Obligations.RevbyteReflectsTheByte
  intro s
  exact ⟨(revbyteBody s).1.completeWith .none, rev8 s.csr.byteIn, rfl, rev8_getLsbD s.csr.byteIn,
    completeWith_endsWith (u := (revbyteBody s).1) ⟨rfl, rfl, rfl⟩ .none, fun _ => rfl, ⟨rfl, rfl, rfl⟩⟩

/-- Settles O30: byte `j` is `rev8` of byte `L - 1 - j`. -/
theorem revtrackReversesTheTrack : Obligations.RevtrackReversesTheTrack := by
  unfold Obligations.RevtrackReversesTheTrack
  intro s t
  refine ⟨_, exec_revtrack t, completeWith_endsWith (u := (revtrackBody t s).1) ⟨rfl, rfl, rfl⟩ .none,
    ⟨rfl, rfl, rfl⟩, revtrackBody_sameMemoryOutside t, fun j hj k hk => ?_⟩
  rw [← State.trackLen, ← rev8_getLsbD _ k hk]
  exact congrArg (·.getLsbD k) (trk_revtrackBody t hj)

/-- Settles O31: symbol `k` is bit `k` of the bytes of the track. -/
theorem unpackCopiesTheBits : Obligations.UnpackCopiesTheBits := by
  unfold Obligations.UnpackCopiesTheBits
  intro s t
  exact ⟨_, exec_unpack t, completeWith_endsWith (u := (unpackBody t s).1) ⟨rfl, rfl, rfl⟩ .none, ⟨rfl, rfl, rfl⟩,
    unpackBody_sameMemoryOutside t, fun _ hk => bs_unpackBody t hk⟩

/-- Settles O32: a bitstring that fits is legal, and is stored reversed. -/
theorem revbitsReversesTheBitstring : Obligations.RevbitsReversesTheBitstring := by
  unfold Obligations.RevbitsReversesTheBitstring
  intro s hfits
  exact ⟨_, exec_revbits hfits, completeWith_endsWith (u := (revbitsBody s).1) ⟨rfl, rfl, rfl⟩ .none,
    ⟨rfl, rfl, rfl⟩, revbitsBody_sameMemoryOutside, fun _ hk => bs_revbitsBody hk⟩

/-! ### One operation after another (40_bitbuffer R169, R170) -/

/-- Every byte of memory is a byte of the track or outside the track's bytes. -/
theorem sameMemory_of_track {s u : State} {t : Track} {n : Nat} (hout : s.sameMemoryOutside u (trkAddr t 0) n)
    (hin : ∀ j < n, u.trk t j = s.trk t j) : s.sameMemory u := by
  intro a
  by_cases ha : a < trkAddr t 0 ∨ trkAddr t 0 + n ≤ a
  · exact hout a ha
  · obtain ⟨j, rfl⟩ := Nat.exists_eq_add_of_le (show trkAddr t 0 ≤ a by omega)
    exact hin j (by omega)

/-- REVTRACK of what REVTRACK stored restores every byte of memory. -/
theorem revtrackBody_revtrackBody_sameMemory (s : State) (t : Track) :
    s.sameMemory (revtrackBody t (revtrackBody t s).1).1 := by
  refine sameMemory_of_track (t := t) (n := s.trackLen t) (fun a ha => ?_) fun j hj => ?_
  · calc (revtrackBody t (revtrackBody t s).1).1.readByte a
        = (revtrackBody t s).1.readByte a := revtrackBody_sameMemoryOutside t a ha
      _ = s.readByte a := revtrackBody_sameMemoryOutside t a ha
  · calc (revtrackBody t (revtrackBody t s).1).1.trk t j
        = rev8 ((revtrackBody t s).1.trk t (s.trackLen t - 1 - j)) := trk_revtrackBody t hj
      _ = rev8 (rev8 (s.trk t (s.trackLen t - 1 - (s.trackLen t - 1 - j)))) := by
        rw [trk_revtrackBody t (by omega)]
      _ = s.trk t j := by rw [rev8_rev8, Nat.sub_sub_self (by omega)]

/-- Settles O33: what the second reversal reads is what the first one stored. -/
theorem reversalsAreInvolutions : Obligations.ReversalsAreInvolutions := by
  unfold Obligations.ReversalsAreInvolutions
  refine ⟨rev8_rev8, fun s t => ?_, fun s hfits => ?_⟩
  · exact ⟨_, _, exec_revtrack t, exec_revtrack t, revtrackBody_revtrackBody_sameMemory s t, rfl⟩
  · refine ⟨_, _, exec_revbits hfits, exec_revbits hfits, rfl, fun k hk => ?_⟩
    calc (revbitsBody ((revbitsBody s).1.completeWith .none)).1.bs k
        = (revbitsBody s).1.bs (s.csr.bslen.toNat - 1 - k) := bs_revbitsBody hk
      _ = s.bs (s.csr.bslen.toNat - 1 - (s.csr.bslen.toNat - 1 - k)) := bs_revbitsBody (by omega)
      _ = s.bs k := by rw [Nat.sub_sub_self (by omega)]

/-- 00_scope R7: the bits of a track fit the bitstring memory. -/
theorem trackBits_le_bsMax {s : State} (h : s.params.valid = true) (t : Track) :
    8 * s.trackLen t ≤ s.params.bsMax := by
  have hlen : s.trackLen t < 256 := (s.tk t).len.isLt
  simp only [Params.valid, Bool.and_eq_true, decide_eq_true_eq, beq_iff_eq] at h
  omega

/-- REVBITS of what UNPACK stored is the bitstream of the track from its end. -/
theorem bs_revbitsBody_unpackBody {s : State} {t : Track} {k : Nat} (hk : k < 8 * s.trackLen t) :
    (revbitsBody (unpackBody t s).1).1.bs k = s.trackBit t (8 * s.trackLen t - 1 - k) := by
  have hlen := unpackBody_bslen (s := s) t
  rw [bs_revbitsBody (by omega), hlen, bs_unpackBody t (by omega)]

/-- Settles O34: symbol `k` of both is bit `8 L - 1 - k` of the track. -/
theorem reversedTrackUnpacksReversed : Obligations.ReversedTrackUnpacksReversed := by
  unfold Obligations.ReversedTrackUnpacksReversed
  intro s t hvalid
  have hfits : (unpackBody t s).1.csr.bslen.toNat ≤ s.params.bsMax := by
    rw [unpackBody_bslen]
    exact trackBits_le_bsMax hvalid t
  refine ⟨_, _, _, _, exec_revtrack t, exec_unpack t, exec_unpack t, exec_revbits hfits,
    fun i hi => trackBit_revtrackBody t hi, rfl, fun k hk => ?_⟩
  calc (unpackBody t ((revtrackBody t s).1.completeWith .none)).1.bs k
      = (revtrackBody t s).1.trackBit t k := bs_unpackBody t hk
    _ = s.trackBit t (8 * s.trackLen t - 1 - k) := trackBit_revtrackBody t hk
    _ = (revbitsBody ((unpackBody t s).1.completeWith .none)).1.bs k := (bs_revbitsBody_unpackBody hk).symm

end Sys2Proof.Machine

/-! ### A demodulator operation runs its body (41_demodulator) -/

namespace Sys2Proof.Machine

section DemodulatorRuns
variable {s : State}

theorem exec_rectify (h : s.csr.nsamp.toNat ≤ s.params.nsMax) :
    exec .rectify s = .next ((rectifyBody s).completeWith .none) :=
  congrArg Host.Outcome.next (performIf_of_legal (decide_eq_true h) fun s => (rectifyBody s, .none))

theorem exec_peakfind (h : s.csr.nsamp.toNat ≤ s.params.nsMax) :
    exec .peakfind s = .next ((peakfindBody s).completeWith .none) :=
  congrArg Host.Outcome.next (performIf_of_legal (decide_eq_true h) fun s => (peakfindBody s, .none))

theorem exec_extract (h : s.intervalsLegal = true) :
    exec .extract s = .next ((extractBody s).1.completeWith (extractBody s).2) :=
  congrArg Host.Outcome.next (performIf_of_legal h extractBody)

theorem exec_demod (h : s.csr.nsamp.toNat ≤ s.params.nsMax) :
    exec .demod s = .next ((extractBody (peakfindBody (rectifyBody s))).1.completeWith
      (extractBody (peakfindBody (rectifyBody s))).2) :=
  congrArg Host.Outcome.next
    (performIf_of_legal (decide_eq_true h) fun s => extractBody (peakfindBody (rectifyBody s)))
end DemodulatorRuns

/-! ### RECTIFY (41_demodulator R191, R192) -/

section Rectification
variable (s : State)

theorem rectifyBody_sameMemoryOutside :
    s.sameMemoryOutside (rectifyBody s) (smpAddr 0) (2 * s.csr.nsamp.toNat) :=
  sameMemoryOutside_writeBytes (by rw [flatMap_length _ 2 bytesOfHalf_length, List.length_map, samples_length])

theorem smp_rectifyBody {i : Nat} (hi : i < s.csr.nsamp.toNat) :
    (rectifyBody s).smp i = rectified s.params.sampleW (s.smp i) := by
  rw [rectifyBody, smp_writeSmp s i _ (by simpa using hi)]
  simp [State.samples]
end Rectification

/-- Settles O35: a stored magnitude is itself a sample of `P_SAMPLE_W` bits, so it reads back whole. -/
theorem rectifyStoresMagnitudes : Obligations.RectifyStoresMagnitudes := by
  unfold Obligations.RectifyStoresMagnitudes
  intro s hfits
  refine ⟨_, exec_rectify hfits, completeWith_endsWith (u := rectifyBody s) ⟨rfl, rfl, rfl⟩ .none, ⟨rfl, rfl, rfl⟩,
    rectifyBody_sameMemoryOutside s, fun i hi => ?_⟩
  calc ((rectifyBody s).smp i).toNat
      = (rectified s.params.sampleW (s.smp i)).toNat := by rw [smp_rectifyBody s hi]
    _ = mag s.params.sampleW (s.smp i) % 2 ^ s.params.sampleW := rectified_toNat _ _

/-! ### The peaks of the runs (41_demodulator R200 to R202) -/

section Peaks
variable {mags : List Nat} {silence : Nat}

/-- Before index `i`, in the middle of a run: `best` is the first of the largest samples the run has had so far, its
index and magnitude. -/
structure RunBest (mags : List Nat) (silence i : Nat) (best : Nat × Nat) : Prop where
  before : best.1 < i
  magnitude : mags.getD best.1 0 = best.2
  run : ∀ k, best.1 ≤ k → k < i → silence < mags.getD k 0
  above : ∀ j < best.1, sameRun mags silence j best.1 → mags.getD j 0 < best.2
  top : ∀ j, best.1 ≤ j → j < i → mags.getD j 0 ≤ best.2

/-- What `peaksFrom` has found when it reaches index `i`. -/
def FoundSoFar (mags : List Nat) (silence i : Nat) : Option (Nat × Nat) → Prop
  | none => ∀ j, j + 1 = i → mags.getD j 0 ≤ silence
  | some best => RunBest mags silence i best

theorem FoundSoFar.none_at_zero : FoundSoFar mags silence 0 none := fun j hj => absurd hj (Nat.succ_ne_zero j)

theorem FoundSoFar.none_of_silent {i : Nat} (h : mags.getD i 0 ≤ silence) : FoundSoFar mags silence (i + 1) none :=
  fun _ hj => Nat.succ.inj hj ▸ h

/-- The least index that can still become a peak. -/
def leastCandidate (i : Nat) : Option (Nat × Nat) → Nat
  | none => i
  | some best => best.1

theorem isPeak_lt {p : Nat} (h : isPeak mags silence p) : p < mags.length := h.1

theorem getD_le_of_length_le {i : Nat} (h : mags.length ≤ i) : mags.getD i 0 ≤ silence := by
  rw [List.getD_eq_default _ _ h]
  exact Nat.zero_le _

/-- 41_demodulator R201: a silent sample is no peak. -/
theorem lt_of_isPeak {i p : Nat} (hi : mags.getD i 0 ≤ silence) (h : isPeak mags silence p) (hle : i ≤ p) :
    i < p := by
  obtain ⟨-, hloud, -, -⟩ := h
  exact Nat.lt_of_le_of_ne hle fun heq => Nat.not_lt.2 hi (heq ▸ hloud)

theorem lt_length_of_silence_lt {i : Nat} (h : silence < mags.getD i 0) : i < mags.length :=
  Nat.not_le.1 fun hge => Nat.not_lt.2 (getD_le_of_length_le hge) h

/-- A sample above every earlier one of its run is the best so far. -/
theorem RunBest.newest {i : Nat} (hi : silence < mags.getD i 0)
    (habove : ∀ j < i, sameRun mags silence j i → mags.getD j 0 < mags.getD i 0) :
    RunBest mags silence (i + 1) (i, mags.getD i 0) where
  before := Nat.lt_succ_self i
  magnitude := rfl
  run k hk hlt := by rwa [show k = i by omega]
  above := habove
  top j hj hlt := by rw [show j = i by omega]

/-- The first sample of a run is the best so far. -/
theorem RunBest.start {i : Nat} (hout : FoundSoFar mags silence i none) (hi : silence < mags.getD i 0) :
    RunBest mags silence (i + 1) (i, mags.getD i 0) :=
  .newest hi fun j hj hrun => by
    have hsilent := hout (i - 1) (by omega)
    have hloud := hrun (i - 1) (by omega) (by omega)
    omega

/-- The next sample of the run replaces the best one only where it is larger: the lowest index wins a tie. -/
theorem RunBest.extend {i : Nat} {best : Nat × Nat} (h : RunBest mags silence i best)
    (hi : silence < mags.getD i 0) :
    RunBest mags silence (i + 1) (if mags.getD i 0 > best.2 then (i, mags.getD i 0) else best) := by
  have hbefore := h.before
  split
  next hgt =>
    refine .newest hi fun j hj hrun => ?_
    rcases Nat.lt_or_ge j best.1 with hjb | hjb
    · have := h.above j hjb fun k hk hkb => hrun k hk (by omega)
      omega
    · have := h.top j hjb hj
      omega
  next hle =>
    refine ⟨by omega, h.magnitude, fun k hk hlt => ?_, h.above, fun j hj hlt => ?_⟩
    · rcases Nat.lt_succ_iff_lt_or_eq.1 hlt with hlt | rfl
      · exact h.run k hk hlt
      · exact hi
    · rcases Nat.lt_succ_iff_lt_or_eq.1 hlt with hlt | rfl
      · exact h.top j hj hlt
      · omega

/-- Where the run ends, its best sample is its peak. -/
theorem RunBest.isPeak {i : Nat} {best : Nat × Nat} (h : RunBest mags silence i best)
    (hend : mags.getD i 0 ≤ silence) : isPeak mags silence best.1 := by
  have hloud := h.run best.1 le_rfl h.before
  refine ⟨lt_length_of_silence_lt hloud, hloud, h.magnitude ▸ h.above, fun j hj hrun => ?_⟩
  have hji : j < i := by
    by_contra hij
    have := hrun i h.before.le (by omega)
    omega
  exact h.magnitude ▸ h.top j hj.le hji

/-- No sample of the run behind its best one is a peak. -/
theorem RunBest.not_isPeak {i p : Nat} {best : Nat × Nat} (h : RunBest mags silence i best) (hp : best.1 < p)
    (hpi : p < i) : ¬ Machine.isPeak mags silence p := by
  rintro ⟨-, -, habove, -⟩
  have hlt := habove best.1 hp fun k hk hkp => h.run k hk (by omega)
  have hle := h.top p hp.le hpi
  rw [h.magnitude] at hlt
  omega

/-- A larger sample in the same run rules out every earlier one from the best so far on. -/
theorem RunBest.not_isPeak_of_lt {i p : Nat} {best : Nat × Nat} (h : RunBest mags silence i best)
    (hi : silence < mags.getD i 0) (hgt : best.2 < mags.getD i 0) (hp : best.1 ≤ p) (hpi : p < i) :
    ¬ Machine.isPeak mags silence p := by
  rintro ⟨-, -, -, hlater⟩
  have hrun : sameRun mags silence p i := fun k hk hki => by
    rcases Nat.lt_or_eq_of_le hki with hki | rfl
    · exact h.run k (by omega) hki
    · exact hi
  have hle := hlater i hpi hrun
  have htop := h.top p hp hpi
  omega

/-- The peaks from the best sample of a run that ends are that sample and the peaks behind the run. -/
theorem RunBest.le_and_isPeak_iff {i p : Nat} {best : Nat × Nat} (h : RunBest mags silence i best)
    (hend : mags.getD i 0 ≤ silence) :
    best.1 ≤ p ∧ Machine.isPeak mags silence p ↔ p = best.1 ∨ i + 1 ≤ p ∧ Machine.isPeak mags silence p := by
  constructor
  · rintro ⟨hle, hpeak⟩
    rcases Nat.eq_or_lt_of_le hle with rfl | hlt
    · exact .inl rfl
    · have hip : i ≤ p := Nat.not_lt.1 fun hpi => h.not_isPeak hlt hpi hpeak
      exact .inr ⟨lt_of_isPeak hend hpeak hip, hpeak⟩
  · rintro (rfl | ⟨hle, hpeak⟩)
    · exact ⟨le_rfl, h.isPeak hend⟩
    · have := h.before
      exact ⟨by omega, hpeak⟩

theorem drop_eq_cons {i m : Nat} {ms : List Nat} (h : mags.drop i = m :: ms) :
    mags.getD i 0 = m ∧ mags.drop (i + 1) = ms := by
  constructor
  · rw [List.getD_eq_getElem?_getD, ← List.head?_drop, h]
    rfl
  · rw [← List.tail_drop, h]
    rfl

/-- The peaks that `peaksFrom` lists from index `i` on are the peaks of the runs, from the least candidate on. -/
theorem mem_peaksFrom_iff {i p : Nat} {best : Option (Nat × Nat)} {ms : List Nat} (hms : mags.drop i = ms)
    (hbest : FoundSoFar mags silence i best) :
    p ∈ peaksFrom silence i best ms ↔ leastCandidate i best ≤ p ∧ isPeak mags silence p := by
  fun_induction peaksFrom silence i best ms with
  | case1 i =>
    have hend := List.drop_eq_nil_iff.1 hms
    simpa [leastCandidate] using fun hle hpeak => not_lt_of_ge (hend.trans hle) (isPeak_lt hpeak)
  | case2 i best =>
    have hend := List.drop_eq_nil_iff.1 hms
    rw [leastCandidate, hbest.le_and_isPeak_iff (getD_le_of_length_le hend), List.mem_singleton, iff_self_or]
    exact fun ⟨hle, hpeak⟩ => absurd (isPeak_lt hpeak) (by omega)
  | case3 i m ms h ih =>
    obtain ⟨rfl, hrest⟩ := drop_eq_cons hms
    rw [ih hrest (.none_of_silent h)]
    exact and_congr_left fun hpeak => ⟨Nat.le_of_succ_le, lt_of_isPeak h hpeak⟩
  | case4 i m ms h ih =>
    obtain ⟨rfl, hrest⟩ := drop_eq_cons hms
    exact ih hrest (.start hbest (Nat.not_le.1 h))
  | case5 i best m ms h ih =>
    obtain ⟨rfl, hrest⟩ := drop_eq_cons hms
    rw [List.mem_cons, ih hrest (.none_of_silent h)]
    exact (hbest.le_and_isPeak_iff h).symm
  | case6 i best m ms h ih =>
    obtain ⟨rfl, hrest⟩ := drop_eq_cons hms
    rw [ih hrest (hbest.extend (Nat.not_le.1 h))]
    refine and_congr_left fun hpeak => ?_
    have hbefore := hbest.before
    split
    next hgt =>
      have hnot := hbest.not_isPeak_of_lt (Nat.not_le.1 h) hgt (p := p)
      exact ⟨fun hle => hbefore.le.trans hle, fun hle => Nat.not_lt.1 fun hpi => hnot hle hpi hpeak⟩
    next => exact Iff.rfl

/-- Over all the samples, the listed indices are the peaks of the runs. -/
theorem mem_peaksFrom_zero {p : Nat} : p ∈ peaksFrom silence 0 none mags ↔ isPeak mags silence p := by
  rw [mem_peaksFrom_iff List.drop_zero .none_at_zero]
  exact and_iff_right (Nat.zero_le p)

/-! ### Order and number of the peaks (41_demodulator R204) -/

/-- A silent sample lies between two peaks. -/
theorem peaksFrom_pairwise {i : Nat} {best : Option (Nat × Nat)} {ms : List Nat} (hms : mags.drop i = ms)
    (hbest : FoundSoFar mags silence i best) : (peaksFrom silence i best ms).Pairwise fun p q => p + 2 ≤ q := by
  fun_induction peaksFrom silence i best ms with
  | case1 i => exact .nil
  | case2 i best => exact List.pairwise_singleton _ _
  | case3 i m ms h ih =>
    obtain ⟨rfl, hrest⟩ := drop_eq_cons hms
    exact ih hrest (.none_of_silent h)
  | case4 i m ms h ih =>
    obtain ⟨rfl, hrest⟩ := drop_eq_cons hms
    exact ih hrest (.start hbest (Nat.not_le.1 h))
  | case5 i best m ms h ih =>
    obtain ⟨rfl, hrest⟩ := drop_eq_cons hms
    refine List.pairwise_cons.2 ⟨fun q hq => ?_, ih hrest (.none_of_silent h)⟩
    have hlt := hbest.before
    have hle : i + 1 ≤ q := ((mem_peaksFrom_iff hrest (.none_of_silent h)).1 hq).1
    omega
  | case6 i best m ms h ih =>
    obtain ⟨rfl, hrest⟩ := drop_eq_cons hms
    exact ih hrest (hbest.extend (Nat.not_le.1 h))

/-- A peak takes a sample of its own and a silent one behind its run. The last run may do without the silent one, and a run
that has begun has its sample already. -/
theorem two_mul_peaksFrom_length_le (i : Nat) (best : Option (Nat × Nat)) (ms : List Nat) :
    2 * (peaksFrom silence i best ms).length ≤ ms.length + 1 + best.toList.length := by
  fun_induction peaksFrom silence i best ms with
  | case1 | case2 => simp
  | case3 i m ms h ih | case4 i m ms h ih | case5 i best m ms h ih | case6 i best m ms h ih =>
    simp only [List.length_cons, Option.toList_none, Option.toList_some, List.length_nil] at ih ⊢
    omega

/-! ### The distances of the peaks (41_demodulator R203, R204) -/

/-- Distances of at least 2 are positive, so none is dropped. -/
theorem intervalsOf_eq_zipWith {peaks : List Nat} (h : peaks.Pairwise fun p q => p + 2 ≤ q) :
    intervalsOf peaks = List.zipWith (fun next prev => next - prev) peaks.tail peaks := by
  refine List.filter_eq_self.2 fun d hd => ?_
  obtain ⟨k, hk, rfl⟩ := List.mem_iff_getElem.1 hd
  rw [List.length_zipWith, List.length_tail] at hk
  have hgap := List.pairwise_iff_getElem.1 h k (k + 1) (by omega) (by omega) (by omega)
  rw [List.getElem_zipWith, List.getElem_tail, decide_eq_true_eq]
  omega

theorem intervalsOf_length {peaks : List Nat} (h : peaks.Pairwise fun p q => p + 2 ≤ q) :
    (intervalsOf peaks).length = peaks.length - 1 := by
  rw [intervalsOf_eq_zipWith h, List.length_zipWith, List.length_tail]
  omega

theorem intervalsOf_getElem {peaks : List Nat} (h : peaks.Pairwise fun p q => p + 2 ≤ q) {k : Nat}
    (hk : k + 1 < peaks.length) :
    (intervalsOf peaks)[k]? = some (peaks[k + 1] - peaks[k]) := by
  rw [intervalsOf_eq_zipWith h]
  simp [List.getElem?_zipWith, hk, Nat.lt_of_succ_lt hk]

/-- Positive distances of indices below `n` are between 1 and `n`. -/
theorem intervalsOf_bounds {peaks : List Nat} {n d : Nat} (hn : ∀ p ∈ peaks, p < n) (hd : d ∈ intervalsOf peaks) :
    1 ≤ d ∧ d < n := by
  obtain ⟨hd, hpos⟩ := List.mem_filter.1 hd
  obtain ⟨k, hk, rfl⟩ := List.mem_iff_getElem.1 hd
  rw [List.length_zipWith, List.length_tail] at hk
  have hlt := hn _ (List.getElem_mem (show k + 1 < peaks.length by omega))
  rw [List.getElem_zipWith, List.getElem_tail] at hpos ⊢
  rw [decide_eq_true_eq] at hpos
  omega

end Peaks
/-! ### PEAKFIND (41_demodulator R203) -/

section Peakfind
variable (s : State)

/-- The peaks that PEAKFIND finds in the samples. -/
def State.peaks (s : State) : List Nat :=
  peaksFrom s.csr.silThres.toNat 0 none (s.samples.map (mag s.params.sampleW))

theorem mem_peaks {i : Nat} :
    i ∈ s.peaks ↔ isPeak (s.samples.map (mag s.params.sampleW)) s.csr.silThres.toNat i :=
  mem_peaksFrom_zero

theorem peaks_gaps : s.peaks.Pairwise fun p q => p + 2 ≤ q := peaksFrom_pairwise List.drop_zero .none_at_zero

theorem peaks_lt {i : Nat} (hi : i ∈ s.peaks) : i < s.csr.nsamp.toNat := by
  simpa using isPeak_lt ((mem_peaks s).1 hi)

theorem two_mul_peaks_length_le : 2 * s.peaks.length ≤ s.csr.nsamp.toNat + 1 := by
  simpa [State.peaks] using
    two_mul_peaksFrom_length_le (silence := s.csr.silThres.toNat) 0 none (s.samples.map (mag s.params.sampleW))

theorem peakfindBody_csr : (peakfindBody s).csr = { s.csr with
    npeak := BitVec.ofNat 32 s.peaks.length, nint := BitVec.ofNat 32 (intervalsOf s.peaks).length } := rfl

theorem peakfindBody_sameMemoryOutside :
    s.sameMemoryOutside (peakfindBody s) (ivlAddr 0) (4 * (intervalsOf s.peaks).length) :=
  sameMemoryOutside_writeBytes (a := ivlAddr 0)
    (by rw [flatMap_length _ 4 bytesOfWord_length, List.length_map]; rfl)

/-- A distance of two samples fits the cells of `IVL`. -/
theorem ivl_peakfindBody {k d : Nat} (hk : (intervalsOf s.peaks)[k]? = some d) :
    ((peakfindBody s).ivl k).toNat = d := by
  obtain ⟨hlt, rfl⟩ := List.getElem?_eq_some_iff.1 hk
  have hd := (intervalsOf_bounds (fun _ hp => peaks_lt s hp) (List.getElem_mem hlt)).2
  have hn := s.csr.nsamp.isLt
  have hcell := ivl_writeIvl s k ((intervalsOf s.peaks).map (BitVec.ofNat 32)) (by simpa using hlt)
  rw [List.getElem_map] at hcell
  rw [show (peakfindBody s).ivl k = _ from hcell, BitVec.toNat_ofNat, Nat.mod_eq_of_lt (by omega)]
end Peakfind

/-- Settles O36: the listed indices are the peaks and leave gaps of at least 2, so no distance is dropped. -/
theorem peakfindStoresPeakDistances : Obligations.PeakfindStoresPeakDistances := by
  unfold Obligations.PeakfindStoresPeakDistances
  intro s hfits
  have hgaps := peaks_gaps s
  have hlen := intervalsOf_length hgaps
  refine ⟨_, s.peaks, exec_peakfind hfits, hgaps.imp fun h => by omega, fun i => mem_peaks s, ?_, ⟨rfl, rfl, rfl⟩,
    hlen ▸ peakfindBody_sameMemoryOutside s, fun k hk => ?_, two_mul_peaks_length_le s⟩
  · rw [← hlen]
    exact completeWith_endsWith (u := peakfindBody s) ⟨rfl, rfl, rfl⟩ .none
  · have hgap := List.pairwise_iff_getElem.1 hgaps k (k + 1) (by omega) hk (by omega)
    have hivl : (((peakfindBody s).completeWith .none).ivl k).toNat = s.peaks[k + 1] - s.peaks[k] :=
      ivl_peakfindBody s (intervalsOf_getElem hgaps hk)
    rw [hivl, List.getD_eq_getElem _ _ hk, List.getD_eq_getElem _ _ (by omega)]
    exact ⟨rfl, by omega⟩

/-! ### The extractor loop with its index (41_demodulator R213 to R216) -/

section Extractor
variable (closed vcDis : Bool) (t : Nat)

/-- The distance `|a - b|` of 41_demodulator R213. -/
theorem natAbs_sub_eq_max_sub_min (a b : Nat) : ((a : Int) - b).natAbs = max a b - min a b := by omega

theorem halfCell_eq_inHalfWindow (x z : Nat) : halfCell closed t x z = inHalfWindow closed t x z := by
  rw [inHalfWindow, show 2 * (x : Int) = ((2 * x : Nat) : Int) by omega, natAbs_sub_eq_max_sub_min]
  rfl

theorem fullCell_eq_inFullWindow (x z : Nat) : fullCell closed t x z = inFullWindow closed t x z := by
  rw [inFullWindow, natAbs_sub_eq_max_sub_min]
  rfl

/-- The final interval is never the first of a test. -/
theorem extractBits_of_length_le_one {z : Nat} {ivls : List Nat} (h : ivls.length ≤ 1) :
    extractBits closed t vcDis z ivls = ([], z) := by
  match ivls, h with
  | [], _ => rfl
  | [_], _ => rfl

theorem drop_map_range (ivl : Nat → Nat) {n i : Nat} (h : i < n) :
    ((List.range n).map ivl).drop i = ivl i :: ((List.range n).map ivl).drop (i + 1) := by
  rw [List.drop_eq_getElem_cons (by simpa using h)]
  simp

/-- With a round for each interval, the loop at index `i` adds the bits of the intervals from `i` on. -/
theorem extractLoop_eq_extractBits (ivl : Nat → Nat) (n fuel i z : Nat) (out : List Bool) (hfuel : n ≤ i + fuel) :
    extractLoop closed vcDis t ivl n fuel i z out =
      (out ++ (extractBits closed t vcDis z (((List.range n).map ivl).drop i)).1,
        (extractBits closed t vcDis z (((List.range n).map ivl).drop i)).2) := by
  have hstop : ∀ {i : Nat} z, ¬ i + 2 ≤ n →
      extractBits closed t vcDis z (((List.range n).map ivl).drop i) = ([], z) :=
    fun z h => extractBits_of_length_le_one closed vcDis t (by simp; omega)
  induction fuel generalizing i z out with
  | zero => simp [extractLoop, hstop z (show ¬ i + 2 ≤ n by omega)]
  | succ fuel ih =>
    rw [extractLoop]
    by_cases hi : i + 2 ≤ n
    · have hrest := drop_map_range ivl (show i + 1 < n by omega)
      rw [if_pos hi, drop_map_range ivl (show i < n by omega), hrest, extractBits, ← hrest, halfCell_eq_inHalfWindow,
        halfCell_eq_inHalfWindow, fullCell_eq_inFullWindow]
      by_cases hone : (inHalfWindow closed t (ivl i) z && inHalfWindow closed t (ivl (i + 1)) z) = true
      · rw [if_pos hone, if_pos hone, ih _ _ _ (by omega), List.append_assoc]
        rfl
      · rw [if_neg hone, if_neg hone]
        by_cases hzero : inFullWindow closed t (ivl i) z = true
        · rw [if_pos hzero, if_pos hzero, ih _ _ _ (by omega), List.append_assoc]
          rfl
        · rw [if_neg hzero, if_neg hzero, ih _ _ _ (by omega)]
    · simp [if_neg hi, hstop z hi]

/-- At most one bit an interval. -/
theorem extractBits_length_le (z : Nat) (ivls : List Nat) :
    (extractBits closed t vcDis z ivls).1.length ≤ ivls.length := by
  fun_induction extractBits closed t vcDis z ivls with
  | case1 | case2 => simp
  | case3 z x y rest h r ih => exact Nat.succ_le_succ (Nat.le_succ_of_le ih)
  | case4 z x y rest h h' r ih => exact Nat.succ_le_succ ih
  | case5 z x y rest h h' ih => exact ih.trans (Nat.le_succ _)

/-- 41_demodulator R216: a reference is the one before it, an interval, or twice an interval. -/
theorem extractBits_reference {P : Nat → Prop} {z : Nat} {ivls : List Nat} (hz : P z)
    (hivls : ∀ x ∈ ivls, P x ∧ P (2 * x)) : P (extractBits closed t vcDis z ivls).2 := by
  fun_induction extractBits closed t vcDis z ivls with
  | case1 | case2 => exact hz
  | case3 z x y rest h r ih =>
    obtain ⟨hx, -, hrest⟩ := List.forall_mem_cons.1 hivls |>.imp_right List.forall_mem_cons.1
    exact ih hx.2 hrest
  | case4 z x y rest h h' r ih =>
    obtain ⟨hx, hrest⟩ := List.forall_mem_cons.1 hivls
    refine ih ?_ hrest
    split
    · exact hz
    · exact hx.1
  | case5 z x y rest h h' ih => exact ih hz (List.forall_mem_cons.1 hivls).2
end Extractor

/-! ### EXTRACT (41_demodulator R212 to R214) -/

section Extract
variable {s : State}

theorem extraction_eq_extractBits (s : State) :
    s.extraction = extractBits s.params.windowClosed s.csr.freqThres.toNat s.csr.ctrl.vcDis (s.ivl 2).toNat
      (s.intervals.drop s.params.first) :=
  extractLoop_eq_extractBits _ _ _ _ _ _ _ _ _ (Nat.le_add_left _ _)

theorem extractBody_of_lt_two (h : s.csr.nint.toNat < 2) :
    extractBody s = (s.withCsr { s.csr with bslen := 0 }, .noDataError) := by
  rw [← intervals_length] at h
  simp only [extractBody, if_pos h]

theorem extractBody_of_eq_two (h : s.csr.nint.toNat = 2) :
    extractBody s = (s.withCsr { s.csr with bslen := 0 }, .none) := by
  rw [← intervals_length] at h
  simp only [extractBody, h, Nat.lt_irrefl, if_false, if_true]

theorem extractBody_of_three_le (h : 3 ≤ s.csr.nint.toNat) :
    extractBody s = ((s.writeBs s.extraction.1).withCsr { s.csr with
      bslen := BitVec.ofNat 32 s.extraction.1.length, zerobl := BitVec.ofNat 32 s.extraction.2 }, .none) := by
  have hseed : s.intervals.getD 2 0 = (s.ivl 2).toNat := by
    simp [State.intervals, List.getD_eq_getElem?_getD, List.getElem?_range (show 2 < s.csr.nint.toNat by omega)]
  rw [← intervals_length] at h
  rw [extraction_eq_extractBits, ← hseed]
  simp only [extractBody, if_neg (show ¬ s.intervals.length < 2 by omega),
    if_neg (show ¬ s.intervals.length = 2 by omega)]

/-- EXTRACT ends with no error but NoDataError. -/
theorem extractBody_ne_illegalCommand (s : State) : (extractBody s).2 ≠ .illegalCommand := by
  rcases Nat.lt_trichotomy s.csr.nint.toNat 2 with h | h | h
  · simp [extractBody_of_lt_two h]
  · simp [extractBody_of_eq_two h]
  · simp [extractBody_of_three_le h]

theorem intervalsLegal_iff : s.intervalsLegal = true ↔
    s.csr.nint.toNat ≤ s.params.niMax ∧
      ∀ k < s.csr.nint.toNat, 1 ≤ (s.ivl k).toNat ∧ (s.ivl k).toNat ≤ 0x7FFFFFFF := by
  simp [State.intervalsLegal, State.intervals]

/-- 41_demodulator R211, R216: legal intervals keep the reference positive and inside `ZEROBL`. -/
theorem extraction_reference (hn : 3 ≤ s.csr.nint.toNat)
    (hlegal : ∀ k < s.csr.nint.toNat, 1 ≤ (s.ivl k).toNat ∧ (s.ivl k).toNat ≤ 0x7FFFFFFF) :
    0 < s.extraction.2 ∧ s.extraction.2 < 2 ^ 32 := by
  rw [extraction_eq_extractBits]
  refine extractBits_reference (P := fun z => 0 < z ∧ z < 2 ^ 32) _ _ _ ?_ fun x hx => ?_
  · have := hlegal 2 hn
    omega
  · obtain ⟨k, hk, rfl⟩ := List.mem_map.1 (List.mem_of_mem_drop hx)
    have := hlegal k (List.mem_range.1 hk)
    omega

theorem extraction_length_lt (s : State) : s.extraction.1.length < 2 ^ 32 := by
  have hlen : s.extraction.1.length ≤ (s.intervals.drop s.params.first).length := by
    rw [extraction_eq_extractBits]
    exact extractBits_length_le _ _ _ _ _
  have hn := s.csr.nint.isLt
  rw [List.length_drop, intervals_length] at hlen
  omega
end Extract

/-- Settles O37: the loop with its index emits what the recursion over the intervals emits. -/
theorem extractFollowsItsLoop : Obligations.ExtractFollowsItsLoop := by
  unfold Obligations.ExtractFollowsItsLoop
  intro s hfits hlegal
  refine ⟨_, exec_extract (intervalsLegal_iff.2 ⟨hfits, hlegal⟩), ?_⟩
  rcases Nat.lt_trichotomy s.csr.nint.toNat 2 with h | h | h
  · rw [extractBody_of_lt_two h]
    exact ⟨⟨rfl, rfl, rfl⟩,
      fun _ => ⟨completeWith_endsWith (u := s.withCsr _) ⟨rfl, rfl, rfl⟩ .noDataError, fun _ => rfl⟩,
      fun h2 => absurd h2 h.ne, fun h3 => absurd h3 (by omega)⟩
  · rw [extractBody_of_eq_two h]
    exact ⟨⟨rfl, rfl, rfl⟩, fun hlt => absurd h hlt.ne,
      fun _ => ⟨completeWith_endsWith (u := s.withCsr _) ⟨rfl, rfl, rfl⟩ .none, fun _ => rfl⟩,
      fun h3 => absurd h3 (by omega)⟩
  · rw [extractBody_of_three_le h]
    obtain ⟨hpos, hlt⟩ := extraction_reference h hlegal
    refine ⟨⟨rfl, rfl, rfl⟩, fun h1 => absurd h1 (by omega), fun h2 => absurd h2 h.ne', fun _ =>
      ⟨completeWith_endsWith (u := (s.writeBs s.extraction.1).withCsr _) ⟨rfl, rfl, rfl⟩ .none,
        Nat.mod_eq_of_lt (extraction_length_lt s), Nat.mod_eq_of_lt hlt, hpos,
        sameMemoryOutside_writeBytes (List.length_map _), fun k hk => ?_⟩⟩
    rw [List.getD_eq_getElem _ _ hk]
    exact bs_writeBs s k _ hk

/-! ### DEMOD (41_demodulator R218) -/

section Demod
variable {s : State}

theorem completeWith_completeWith (s : State) (d e : ErrCode) : (s.completeWith d).completeWith e = s.completeWith e :=
  rfl

/-- The completion of the operation before makes no difference to EXTRACT but its own bits. -/
theorem extractBody_completeWith (s : State) (e : ErrCode) :
    extractBody (s.completeWith e) = ((extractBody s).1.completeWith e, (extractBody s).2) := by
  rcases Nat.lt_trichotomy s.csr.nint.toNat 2 with h | h | h
  · rw [extractBody_of_lt_two h, extractBody_of_lt_two (s := s.completeWith e) h]
    rfl
  · rw [extractBody_of_eq_two h, extractBody_of_eq_two (s := s.completeWith e) h]
    rfl
  · rw [extractBody_of_three_le h, extractBody_of_three_le (s := s.completeWith e) h]
    rfl

/-- 00_scope R7: the peaks of the samples leave room in the interval memory, and the distances of samples are legal. -/
theorem peakfindBody_intervalsLegal (hvalid : s.params.valid = true) (hfits : s.csr.nsamp.toNat ≤ s.params.nsMax) :
    (peakfindBody s).intervalsLegal = true := by
  simp only [Params.valid, Bool.and_eq_true, decide_eq_true_eq, beq_iff_eq] at hvalid
  have hlen := intervalsOf_length (peaks_gaps s)
  have hpeaks := two_mul_peaks_length_le s
  have hnint : (peakfindBody s).csr.nint.toNat = (intervalsOf s.peaks).length := by
    rw [peakfindBody_csr, BitVec.toNat_ofNat, Nat.mod_eq_of_lt (by omega)]
  refine intervalsLegal_iff.2 ⟨?_, fun k hk => ?_⟩
  · rw [hnint]
    exact show (intervalsOf s.peaks).length ≤ s.params.niMax by omega
  · have hget := List.getElem?_eq_getElem (hnint ▸ hk)
    have hd := intervalsOf_bounds (fun _ hp => peaks_lt s hp) (List.getElem_mem (hnint ▸ hk))
    rw [ivl_peakfindBody s hget]
    omega
end Demod

/-- Settles O38: completion between the operations touches only what the last completion writes over. -/
theorem demodIsRectifyPeakfindExtract : Obligations.DemodIsRectifyPeakfindExtract := by
  unfold Obligations.DemodIsRectifyPeakfindExtract
  intro s hvalid hfits
  have hlegal := peakfindBody_intervalsLegal (s := (rectifyBody s).completeWith .none) hvalid hfits
  refine ⟨_, _, _, exec_rectify hfits, exec_peakfind hfits, exec_extract hlegal, ?_, ?_⟩
  · have hpeakfind : peakfindBody ((rectifyBody s).completeWith .none) =
        (peakfindBody (rectifyBody s)).completeWith .none := rfl
    rw [exec_demod hfits, hpeakfind]
    simp only [extractBody_completeWith, completeWith_completeWith]
  · exact extractBody_ne_illegalCommand _

end Sys2Proof.Machine

/-! ### Parity, values and the LRC of chunks (42_track_decoder R231, R232, R239) -/

namespace Sys2Proof.Machine

@[simp] theorem oddOnes_nil : oddOnes [] = false := rfl

@[simp] theorem oddOnes_cons (b : Bool) (c : List Bool) : oddOnes (b :: c) = (b ^^ oddOnes c) := by
  cases b
  · simp [oddOnes]
  · rcases Nat.mod_two_eq_zero_or_one (c.count true) with h | h
    all_goals simp [oddOnes, Nat.add_mod, h]

@[simp] theorem oddOnes_append (c d : List Bool) : oddOnes (c ++ d) = (oddOnes c ^^ oddOnes d) := by
  induction c with
  | nil => simp
  | cons b c ih => simp [ih]

/-- The running exclusive or of 42_track_decoder R237 counts the 1s mod 2. -/
theorem oddParity_eq_oddOnes (c : List Bool) : oddParity c = oddOnes c := by
  have hfold : ∀ acc, c.foldl (fun acc b => acc ^^ b) acc = (acc ^^ oddOnes c) := by
    induction c with
    | nil => simp
    | cons b c ih => simp [ih]
  simpa [oddParity] using hfold false

/-- An LRC field has good parity (42_track_decoder R240). -/
theorem oddOnes_lrcFieldOf (bits : List Bool) : oddOnes (lrcFieldOf bits) = true := by
  simp [lrcFieldOf]

/-- One flipped bit turns the parity (42_track_decoder R250). -/
theorem oddOnes_modify_not {c : List Bool} {j : Nat} (h : j < c.length) :
    oddOnes (c.modify j not) = !oddOnes c := by
  induction c generalizing j with
  | nil => simp at h
  | cons b c ih =>
    cases j with
    | zero => simp
    | succ j => simp [ih (Nat.lt_of_succ_lt_succ h)]

/-- The first symbols of a bitstring, read off by positions. -/
theorem take_eq_map_range {l : List Bool} {m : Nat} (h : m ≤ l.length) :
    l.take m = (List.range m).map fun j => l.getD j false := by
  refine List.ext_getElem (by simp [h]) fun j hj _ => ?_
  have hl : j < l.length := by simp at hj; omega
  simp [hl]

/-- The value of symbols given by position (42_track_decoder R232). -/
theorem valueOfBits_map_range (g : Nat → Bool) (n : Nat) :
    valueOfBits ((List.range n).map g) = ((List.range n).map fun j => (g j).toNat * 2 ^ j).sum := by
  induction n generalizing g with
  | zero => rfl
  | succ n ih =>
    have hdouble : ∀ j, (g (j + 1)).toNat * 2 ^ (j + 1) = 2 * ((g (j + 1)).toNat * 2 ^ j) := fun j => by ring
    have htail := ih fun j => g (j + 1)
    simp only [List.range_succ_eq_map, List.map_cons, List.map_map, Function.comp_def, valueOfBits, List.sum_cons,
      Nat.succ_eq_add_one, hdouble, List.sum_map_mul_left]
    omega

/-- The symbols of a value's bits have that value (30_encoding R134). -/
theorem valueOfBits_testBit {m v : Nat} (h : v < 2 ^ m) : valueOfBits ((List.range m).map v.testBit) = v := by
  induction m generalizing v with
  | zero => simp [valueOfBits]; omega
  | succ m ih =>
    have hhalf := ih (v := v / 2) (by omega)
    simp only [List.range_succ_eq_map, List.map_cons, List.map_map, Function.comp_def, valueOfBits,
      Nat.testBit_succ, hhalf, Nat.testBit_zero]
    rcases Nat.mod_two_eq_zero_or_one v with h0 | h0
    all_goals
      simp [h0]
      omega

/-- Exclusive or of two bit sequences, position by position (42_track_decoder R239). -/
theorem xorBits_map_range {g : Nat → Bool} {m : Nat} {c : List Bool} (h : m ≤ c.length) :
    xorBits ((List.range m).map g) c = (List.range m).map fun j => g j ^^ c.getD j false := by
  refine List.ext_getElem (by simp [xorBits, h]) fun j _ hj => ?_
  have hc : j < c.length := by simp at hj; omega
  simp [xorBits, hc]

/-- Each bit of the accumulator is the parity of its column (42_track_decoder R239). -/
theorem foldl_xorBits_map_range {m : Nat} {cs : List (List Bool)} (h : ∀ c ∈ cs, m ≤ c.length) (g : Nat → Bool) :
    cs.foldl xorBits ((List.range m).map g) =
      (List.range m).map fun j => g j ^^ oddOnes (cs.map fun c => c.getD j false) := by
  induction cs generalizing g with
  | nil => simp
  | cons c cs ih =>
    rw [List.foldl_cons, xorBits_map_range (h c List.mem_cons_self), ih fun c hc => h c (List.mem_cons_of_mem _ hc)]
    simp

/-! ### The framings (42_track_decoder R230) -/

/-- What the sentinels of a framing are: chunks of its width, the end sentinel with good parity and the value of its
character. -/
structure Framing.WellFormed (f : Framing) : Prop where
  width_pos : 0 < f.width
  startBits_length : f.startBits.length = f.width
  endBits_length : f.endBits.length = f.width
  endBits_odd : oddOnes f.endBits = true
  endBits_value : f.base + valueOfBits (f.endBits.take (f.width - 1)) = f.endChar.toNat

theorem mem_framings {i : Instr} {f : Framing} (h : (i, f) ∈ framings) :
    (i = .decodeAba ∧ f = abaFraming) ∨ (i = .decodeIata ∧ f = iataFraming) := by
  rw [show framings = [(.decodeAba, abaFraming), (.decodeIata, iataFraming)] from rfl] at h
  simpa using h

/-- Both framings of 42_track_decoder R230 are. -/
theorem Framing.WellFormed.of_mem_framings {i : Instr} {f : Framing} (h : (i, f) ∈ framings) : f.WellFormed := by
  rcases mem_framings h with ⟨-, rfl⟩ | ⟨-, rfl⟩
  all_goals exact ⟨by decide, by decide, by decide, by decide, by decide⟩

/-- The LRC field the chunks `cs` between the sentinels ask for (42_track_decoder R239, R240). -/
def Framing.lrcOfChunks (f : Framing) (cs : List (List Bool)) : List Bool :=
  lrcFieldOf ((List.range (f.width - 1)).map fun j =>
    oddOnes (f.startBits.getD j false :: f.endBits.getD j false :: cs.map fun c => c.getD j false))

/-- The accumulator over the chunks, completed, is the LRC field they ask for. -/
theorem lrcField_foldl_xorBits {f : Framing} (hf : f.WellFormed) {cs : List (List Bool)}
    (hcs : ∀ c ∈ cs, c.length = f.width) :
    f.lrcField (cs.foldl xorBits (f.startBits.take (f.width - 1))) = f.lrcOfChunks cs := by
  have hstart := hf.startBits_length
  have hend := hf.endBits_length
  have hshort : ∀ c ∈ cs, f.width - 1 ≤ c.length := fun c hc => by rw [hcs c hc]; omega
  rw [take_eq_map_range (by omega), foldl_xorBits_map_range hshort, Framing.lrcField, Framing.lrcOfChunks, lrcFieldOf,
    xorBits_map_range (by simp; omega), oddParity_eq_oddOnes]
  have hcolumn : ∀ j ∈ List.range (f.width - 1),
      ((f.startBits.getD j false ^^ oddOnes (cs.map fun c => c.getD j false)) ^^
          (f.endBits.take (f.width - 1)).getD j false) =
        oddOnes (f.startBits.getD j false :: f.endBits.getD j false :: cs.map fun c => c.getD j false) := by
    intro j hj
    have hj := List.mem_range.1 hj
    simp only [oddOnes_cons, List.getD_eq_getElem?_getD, List.getElem?_take_of_lt hj]
    rw [Bool.xor_assoc, Bool.xor_comm (oddOnes _)]
  rw [List.map_congr_left hcolumn]

/-- The chunk loop: ParityError at a bad chunk, or the characters and the accumulator (42_track_decoder R237). -/
theorem decodeChunks_eq (f : Framing) (lrc : List Bool) (cs : List (List Bool)) :
    decodeChunks f lrc cs =
      if cs.any fun c => !oddOnes c then .error .parityError else .ok (cs.map f.charOf, cs.foldl xorBits lrc) := by
  induction cs generalizing lrc with
  | nil => rfl
  | cons c cs ih =>
    rw [decodeChunks, oddParity_eq_oddOnes, ih]
    cases hc : oddOnes c
    · simp [hc]
    · by_cases hcs : (cs.any fun c => !oddOnes c) = true
      all_goals simp [hc, hcs]

/-! ### The verdict on a located frame (42_track_decoder R237) -/

/-- What `Decode` answers once the sentinels are found, on the chunks between them and the symbols where the LRC field
stands. -/
def Framing.verdict (f : Framing) (cs : List (List Bool)) (field : List Bool) : Except ErrCode (List Byte) :=
  if cs.any fun c => !oddOnes c then .error .parityError
  else if field ≠ f.lrcOfChunks cs then .error .checksumError
  else .ok (f.startChar :: (cs.map f.charOf ++ [f.endChar]))

theorem length_lrcOfChunks {f : Framing} (hf : f.WellFormed) (cs : List (List Bool)) :
    (f.lrcOfChunks cs).length = f.width := by
  have := hf.width_pos
  simp [Framing.lrcOfChunks, lrcFieldOf]
  omega

/-- A field cut short by the end of the bitstring matches no LRC (42_track_decoder R242). -/
theorem verdict_of_short {f : Framing} (hf : f.WellFormed) {cs : List (List Bool)} {field : List Bool}
    (h : field.length < f.width) :
    f.verdict cs field = if cs.any fun c => !oddOnes c then .error .parityError else .error .checksumError := by
  have hfield : field ≠ f.lrcOfChunks cs := by
    rintro rfl
    exact absurd (length_lrcOfChunks hf cs) h.ne
  rw [Framing.verdict, if_pos hfield]

/-- The decoder is the verdict on what stands between and behind the sentinels it finds. -/
theorem decodeTrack_of_located {f : Framing} (hf : f.WellFormed) {b : List Bool} {s e : Nat} {cs : List (List Bool)}
    (hs : firstMatch f.startBits (fun _ => true) 0 b = some s)
    (he : firstMatch f.endBits (fun k => (k - (s + f.width)) % f.width == 0) (s + f.width) (b.drop (s + f.width)) =
      some e)
    (hchunks : chunksOf f.width ((e - (s + f.width)) / f.width) (b.drop (s + f.width)) = cs)
    (hcs : ∀ c ∈ cs, c.length = f.width) :
    decodeTrack f b = f.verdict cs ((b.drop (e + f.width)).take f.width) := by
  have hpos := hf.width_pos
  simp only [decodeTrack, hs, he, hchunks, decodeChunks_eq]
  by_cases hbad : (cs.any fun c => !oddOnes c) = true
  · simp only [Framing.verdict, hbad, if_true]
  · simp only [hbad, if_false, Bool.false_eq_true, lrcField_foldl_xorBits hf hcs, List.cons_append]
    by_cases hshort : b.length < e + 2 * f.width
    · rw [verdict_of_short hf (by simp; omega), if_pos hshort, if_neg hbad]
    · rw [Framing.verdict, if_neg hshort, if_neg hbad]

/-! ### Locating the sentinels (42_track_decoder R233 to R235) -/

/-- `match(B, k, P)`: the pattern begins the bitstring from `k` on. -/
theorem matchesAt_eq_isPrefixOf {b p : List Bool} {k : Nat} (hk : k ≤ b.length) :
    matchesAt b k p = p.isPrefixOf (b.drop k) := by
  rw [Bool.eq_iff_iff, List.isPrefixOf_iff_prefix, List.prefix_iff_getElem]
  simp only [matchesAt, Bool.and_eq_true, decide_eq_true_eq, List.all_eq_true, List.mem_range, beq_iff_eq,
    List.length_drop, List.getElem_drop]
  constructor
  all_goals
    rintro ⟨hlen, hsame⟩
    refine ⟨by omega, fun j hj => ?_⟩
    have hb : k + j < b.length := by omega
    simpa [hj, hb] using (hsame j hj).symm

/-- A chunk inside the bitstring, read off by positions. -/
theorem chunkAt_eq_take_drop {f : Framing} {b : List Bool} {k : Nat} (h : k + f.width ≤ b.length) :
    chunkAt f b k = (b.drop k).take f.width := by
  rw [take_eq_map_range (by simp; omega), chunkAt]
  simp

/-- The search along the bitstring is the search over the positions. -/
theorem firstMatch_eq_find? {b p : List Bool} (ok : Nat → Bool) {k : Nat} (hk : k ≤ b.length) :
    firstMatch p ok k (b.drop k) =
      (List.range' k (b.length + 1 - k)).find? fun j => ok j && matchesAt b j p := by
  generalize hl : b.drop k = l
  induction l generalizing k with
  | nil =>
    have hend : b.length ≤ k := List.drop_eq_nil_iff.1 hl
    rw [show b.length + 1 - k = 1 by omega]
    simp only [List.range'_one, List.find?_singleton, matchesAt_eq_isPrefixOf hk, hl, firstMatch]
  | cons x l ih =>
    have hlt : k < b.length := by
      have := congrArg List.length hl
      simp at this
      omega
    have htail : b.drop (k + 1) = l := by rw [← List.tail_drop, hl, List.tail_cons]
    rw [show b.length + 1 - k = (b.length + 1 - (k + 1)) + 1 by omega, List.range'_succ, List.find?_cons,
      ← ih hlt htail, matchesAt_eq_isPrefixOf hk, hl, firstMatch]
    cases ok k && p.isPrefixOf (x :: l)
    all_goals rfl

theorem firstMatch_zero_eq_find? (b p : List Bool) :
    firstMatch p (fun _ => true) 0 b = (List.range (b.length + 1)).find? fun k => matchesAt b k p := by
  rw [List.range_eq_range']
  exact firstMatch_eq_find? (fun _ => true) (Nat.zero_le _)

/-- The search from `d` on, over all positions. -/
theorem firstMatch_from_eq_find? {b p : List Bool} (ok : Nat → Bool) {d : Nat} (hd : d ≤ b.length) :
    firstMatch p ok d (b.drop d) =
      (List.range (b.length + 1)).find? fun k => decide (d ≤ k) && ok k && matchesAt b k p := by
  have hsplit : List.range (b.length + 1) = List.range' 0 d ++ List.range' d (b.length + 1 - d) := by
    rw [List.range_eq_range', show b.length + 1 = d + (b.length + 1 - d) by omega, ← List.range'_append]
    simp
  have hbefore : (List.range' 0 d).find? (fun k => decide (d ≤ k) && ok k && matchesAt b k p) = none := by
    rw [List.find?_eq_none]
    intro k hk
    have : ¬ d ≤ k := by have := List.mem_range'_1.1 hk; omega
    simp [this]
  rw [firstMatch_eq_find? ok hd, hsplit, List.find?_append, hbefore, Option.none_or]
  refine List.find?_congr fun k hk => ?_
  simp [(List.mem_range'_1.1 hk).1]

/-! ### The datapath by positions (42_track_decoder R237) -/

/-- The chunks of a bitstring by their positions (30_encoding R134). -/
theorem chunksOf_drop {f : Framing} {b : List Bool} {d n : Nat} (h : d + n * f.width ≤ b.length) :
    chunksOf f.width n (b.drop d) = (List.range n).map fun c => chunkAt f b (d + c * f.width) := by
  induction n generalizing d with
  | zero => rfl
  | succ n ih =>
    rw [Nat.add_mul, Nat.one_mul] at h
    rw [chunksOf, List.drop_drop, ih (by omega), List.range_succ_eq_map, List.map_cons, List.map_map,
      chunkAt_eq_take_drop (by omega)]
    simp only [Nat.zero_mul, Nat.add_zero, List.cons.injEq, true_and]
    refine List.map_congr_left fun c _ => congrArg (chunkAt f b) ?_
    simp only [Nat.succ_eq_add_one]
    ring

theorem charOf_chunkAt (f : Framing) (b : List Bool) (k : Nat) : f.charOf (chunkAt f b k) = characterAt f b k := by
  rw [Framing.charOf, chunkAt, ← List.map_take, List.take_range, Nat.min_eq_left (Nat.sub_le _ _),
    valueOfBits_map_range, characterAt]

/-- The LRC field the chunks from `d` on ask for, by positions. -/
theorem lrcOfChunks_chunkAt (f : Framing) (b : List Bool) (d n : Nat) :
    f.lrcOfChunks ((List.range n).map fun c => chunkAt f b (d + c * f.width)) =
      lrcFieldOf ((List.range (f.width - 1)).map fun j => lrcBit f b d n j) := by
  refine congrArg lrcFieldOf (List.map_congr_left fun j hj => ?_)
  have hj : j < f.width := by have := List.mem_range.1 hj; omega
  simp [lrcBit, chunkAt, hj, Function.comp_def]

/-- A match lies inside the bitstring (42_track_decoder R233). -/
theorem add_length_le_of_matchesAt {b p : List Bool} {k : Nat} (h : matchesAt b k p = true) :
    k + p.length ≤ b.length := by
  simp only [matchesAt, Bool.and_eq_true, decide_eq_true_eq] at h
  exact h.1

/-- The two accounts of `Decode(F, B)` agree. -/
theorem decodeTrack_eq_decodeByPositions {f : Framing} (hf : f.WellFormed) (b : List Bool) :
    decodeTrack f b = decodeByPositions f b := by
  have hstart := firstMatch_zero_eq_find? b f.startBits
  rw [decodeByPositions]
  cases hs : (List.range (b.length + 1)).find? fun k => matchesAt b k f.startBits with
  | none => simp only [decodeTrack, hstart, hs]
  | some s =>
    have hd := add_length_le_of_matchesAt (List.find?_some (p := fun k => matchesAt b k f.startBits) hs)
    rw [hf.startBits_length] at hd
    have hend := firstMatch_from_eq_find? (p := f.endBits) (fun k => (k - (s + f.width)) % f.width == 0) hd
    cases he : (List.range (b.length + 1)).find? fun k =>
        decide (s + f.width ≤ k) && (k - (s + f.width)) % f.width == 0 && matchesAt b k f.endBits with
    | none => simp only [decodeTrack, hstart, hs, hend, he]
    | some e =>
      have hspan := List.find?_some he
      simp only [Bool.and_eq_true, decide_eq_true_eq, beq_iff_eq] at hspan
      obtain ⟨⟨hde, hmod⟩, hmatch⟩ := hspan
      have hfits := add_length_le_of_matchesAt hmatch
      have hn : (e - (s + f.width)) / f.width * f.width = e - (s + f.width) :=
        Nat.div_mul_cancel (Nat.dvd_of_mod_eq_zero hmod)
      rw [decodeTrack_of_located hf (hstart.trans hs) (hend.trans he)
        (chunksOf_drop (f := f) (b := b) (d := s + f.width) (by omega)) (by simp [chunkAt])]
      simp only [he]
      by_cases hshort : b.length < e + 2 * f.width
      · rw [verdict_of_short hf (by simp; omega), if_pos hshort]
        simp only [List.any_map, Function.comp_def]
      · rw [if_neg hshort, ← chunkAt_eq_take_drop (by omega), Framing.verdict, lrcOfChunks_chunkAt]
        simp only [List.any_map, List.map_map, Function.comp_def, charOf_chunkAt]

/-! ### The decode operations (42_track_decoder R244 to R247) -/

section DecodeRuns
variable {s : State} {f : Framing}

theorem exec_decode {i : Instr} (hi : (i, f) ∈ framings) (h : s.csr.bslen.toNat ≤ s.params.bsMax) :
    exec i s = .next ((decodeBody f s).1.completeWith (decodeBody f s).2) := by
  have hlegal : s.bitstringLegal = true := decide_eq_true h
  rcases mem_framings hi with ⟨rfl, rfl⟩ | ⟨rfl, rfl⟩
  all_goals exact congrArg Host.Outcome.next (performIf_of_legal hlegal (decodeBody _))

theorem exec_decode_of_error {i : Instr} (hi : (i, f) ∈ framings) (h : s.csr.bslen.toNat ≤ s.params.bsMax)
    {e : ErrCode} (hdec : decodeTrack f s.bitstring = .error e) :
    exec i s = .next ((s.withCsr { s.csr with declen := 0 }).completeWith e) := by
  simp only [exec_decode hi h, decodeBody, hdec]

theorem exec_decode_of_ok {i : Instr} (hi : (i, f) ∈ framings) (h : s.csr.bslen.toNat ≤ s.params.bsMax)
    {out : List Byte} (hdec : decodeTrack f s.bitstring = .ok out) :
    exec i s = .next (((s.writeDec out).withCsr
      { s.csr with declen := BitVec.ofNat 32 out.length }).completeWith .none) := by
  simp only [exec_decode hi h, decodeBody, hdec]

theorem dec_decoded {c : Csr} {e : ErrCode} {out : List Byte} {k : Nat} (hk : k < out.length) :
    (((s.writeDec out).withCsr c).completeWith e).dec k = out.getD k 0 := by
  rw [List.getD_eq_getElem _ _ hk]
  exact dec_writeDec s k out hk
end DecodeRuns

/-- Settles O39: the datapath over lists is the datapath by positions, and the body stores its answer. -/
theorem decodeFollowsTheDatapath : Obligations.DecodeFollowsTheDatapath := by
  unfold Obligations.DecodeFollowsTheDatapath
  intro s i f hi hfits
  rw [← decodeTrack_eq_decodeByPositions (.of_mem_framings hi)]
  cases hdec : decodeTrack f s.bitstring with
  | error e =>
    refine ⟨_, exec_decode_of_error hi hfits hdec, ⟨rfl, rfl, rfl⟩, ?_, nofun⟩
    rintro _ ⟨⟩
    exact ⟨completeWith_endsWith (u := s.withCsr _) ⟨rfl, rfl, rfl⟩ e, fun _ => rfl⟩
  | ok out =>
    refine ⟨_, exec_decode_of_ok hi hfits hdec, ⟨rfl, rfl, rfl⟩, nofun, ?_⟩
    rintro _ ⟨⟩
    exact ⟨completeWith_endsWith (u := (s.writeDec out).withCsr _) ⟨rfl, rfl, rfl⟩ .none,
      sameMemoryOutside_writeBytes rfl, fun k hk => dec_decoded hk⟩

/-! ### Framed bitstrings (42_track_decoder R249) -/

theorem firstMatch_of_isPrefixOf {p l : List Bool} {ok : Nat → Bool} {k : Nat} (hok : ok k = true)
    (hp : p.isPrefixOf l = true) : firstMatch p ok k l = some k := by
  cases l
  all_goals simp [firstMatch, hok, hp]

/-- The search passes over symbols at which nothing is found. -/
theorem firstMatch_append {p l r : List Bool} {ok : Nat → Bool} {k : Nat}
    (h : ∀ j < l.length, (ok (k + j) && p.isPrefixOf ((l ++ r).drop j)) = false) :
    firstMatch p ok k (l ++ r) = firstMatch p ok (k + l.length) r := by
  induction l generalizing k with
  | nil => rfl
  | cons b l ih =>
    have hhead := h 0 (Nat.succ_pos _)
    have htail : ∀ j < l.length, (ok (k + 1 + j) && p.isPrefixOf ((l ++ r).drop j)) = false := fun j hj => by
      have := h (j + 1) (Nat.succ_lt_succ hj)
      rwa [← Nat.add_assoc, Nat.add_right_comm] at this
    simp only [List.cons_append, List.drop_zero, Nat.add_zero] at hhead
    rw [List.cons_append, firstMatch, hhead, ih htail, List.length_cons]
    simp [Nat.add_right_comm, Nat.add_assoc]

/-- The start sentinel behind symbols in which it does not match is found where it stands (42_track_decoder R234). -/
theorem firstMatch_lead {p lead rest : List Bool}
    (h : ∀ k < lead.length, matchesAt (lead ++ (p ++ rest)) k p = false) :
    firstMatch p (fun _ => true) 0 (lead ++ (p ++ rest)) = some lead.length := by
  rw [firstMatch_append, Nat.zero_add]
  · exact firstMatch_of_isPrefixOf rfl (by simp)
  · intro j hj
    rw [Bool.true_and, ← matchesAt_eq_isPrefixOf (by simp; omega), h j hj]

theorem length_flatten_of_chunks {cs : List (List Bool)} {w : Nat} (hcs : ∀ c ∈ cs, c.length = w) :
    cs.flatten.length = cs.length * w := by
  rw [List.length_flatten, List.map_congr_left hcs]
  simp

/-- The end sentinel behind whole chunks that differ from it is found where it stands (42_track_decoder R235). -/
theorem firstMatch_chunks {p rest : List Bool} {d w : Nat} (hp : p.length = w) {cs : List (List Bool)}
    (hcs : ∀ c ∈ cs, c.length = w) (hne : ∀ c ∈ cs, c ≠ p) (i : Nat) :
    firstMatch p (fun k => (k - d) % w == 0) (d + i * w) (cs.flatten ++ (p ++ rest)) =
      some (d + (i + cs.length) * w) := by
  induction cs generalizing i with
  | nil => exact firstMatch_of_isPrefixOf (by simp) (by simp)
  | cons c cs ih =>
    have hlen := hcs c List.mem_cons_self
    have htail := ih (fun x hx => hcs x (List.mem_cons_of_mem _ hx)) (fun x hx => hne x (List.mem_cons_of_mem _ hx))
      (i + 1)
    rw [List.flatten_cons, List.append_assoc, firstMatch_append, hlen]
    · rw [show d + i * w + w = d + (i + 1) * w by ring, htail, List.length_cons, Nat.add_right_comm, Nat.add_assoc]
    · intro j hj
      cases j with
      | zero =>
        have hc : ¬ p <+: c ++ (cs.flatten ++ (p ++ rest)) := fun h =>
          hne c List.mem_cons_self
            ((List.prefix_of_prefix_length_le h (List.prefix_append c _) (by omega)).eq_of_length (by omega)).symm
        rw [List.drop_zero, Bool.and_eq_false_iff]
        exact .inr (Bool.eq_false_iff.2 fun h => hc (List.isPrefixOf_iff_prefix.1 h))
      | succ j =>
        have : (d + i * w + (j + 1) - d) % w = j + 1 := by
          rw [show d + i * w + (j + 1) - d = j + 1 + i * w by omega, Nat.add_mul_mod_self_right,
            Nat.mod_eq_of_lt (by omega)]
        simp [this]

theorem chunksOf_flatten {w : Nat} {cs : List (List Bool)} (hcs : ∀ c ∈ cs, c.length = w) (rest : List Bool) :
    chunksOf w cs.length (cs.flatten ++ rest) = cs := by
  induction cs with
  | nil => rfl
  | cons c cs ih =>
    obtain rfl := hcs c List.mem_cons_self
    rw [List.length_cons, chunksOf, List.flatten_cons, List.append_assoc, List.take_left, List.drop_left,
      ih fun x hx => hcs x (List.mem_cons_of_mem _ hx)]

/-- A frame: start sentinel, chunks, end sentinel, LRC field (42_track_decoder R249). -/
def Framing.frame (f : Framing) (cs : List (List Bool)) (field : List Bool) : List Bool :=
  f.startBits ++ cs.flatten ++ f.endBits ++ field

/-- A frame of whole chunks, none of them the end sentinel, behind symbols in which the start sentinel does not match:
the answer is the verdict on its chunks and its LRC field. -/
theorem decodeTrack_frame {f : Framing} (hf : f.WellFormed) {lead field tail : List Bool} {cs : List (List Bool)}
    (hcs : ∀ c ∈ cs, c.length = f.width) (hne : ∀ c ∈ cs, c ≠ f.endBits) (hfield : field.length = f.width)
    {b : List Bool} (hb : b = lead ++ f.frame cs field ++ tail)
    (hlead : ∀ k < lead.length, matchesAt b k f.startBits = false) :
    decodeTrack f b = f.verdict cs field := by
  have hstart := hf.startBits_length
  have hdata : b.drop (lead.length + f.width) = cs.flatten ++ (f.endBits ++ (field ++ tail)) := by
    simp [hb, Framing.frame, ← hstart]
  have hlrc : (b.drop (lead.length + f.width + cs.length * f.width + f.width)).take f.width = field := by
    rw [← List.drop_drop, ← List.drop_drop, hdata, List.drop_left' (length_flatten_of_chunks hcs),
      List.drop_left' hf.endBits_length, List.take_left' hfield]
  have hs : firstMatch f.startBits (fun _ => true) 0 b = some lead.length := by
    simp only [Framing.frame, List.append_assoc] at hb
    subst hb
    exact firstMatch_lead hlead
  have he := firstMatch_chunks hf.endBits_length hcs hne 0 (d := lead.length + f.width)
    (rest := field ++ tail)
  rw [Nat.zero_mul, Nat.add_zero, Nat.zero_add, ← hdata] at he
  have hn : (lead.length + f.width + cs.length * f.width - (lead.length + f.width)) / f.width = cs.length := by
    rw [Nat.add_sub_cancel_left, Nat.mul_div_cancel _ hf.width_pos]
  rw [decodeTrack_of_located hf hs he (by rw [hn, hdata, chunksOf_flatten hcs]) hcs, hlrc]

/-! ### Encoded tracks (30_encoding R134, R139, 42_track_decoder R249) -/

section EncodedTracks
variable {f : Framing} (hf : f.WellFormed)
include hf

theorem length_chunkOfValue (v : Nat) : (chunkOfValue f v).length = f.width := by
  have := hf.width_pos
  simp [chunkOfValue, lrcFieldOf]
  omega

theorem length_of_mem_map_chunkOfValue {vals : List Nat} : ∀ c ∈ vals.map (chunkOfValue f), c.length = f.width :=
  List.forall_mem_map.2 fun v _ => length_chunkOfValue hf v

omit hf in
theorem oddOnes_of_mem_map_chunkOfValue (f : Framing) (vals : List Nat) :
    ∀ c ∈ vals.map (chunkOfValue f), oddOnes c = true :=
  List.forall_mem_map.2 fun _ _ => oddOnes_lrcFieldOf _

omit hf in
theorem take_chunkOfValue (v : Nat) :
    (chunkOfValue f v).take (f.width - 1) = (List.range (f.width - 1)).map v.testBit := by
  rw [chunkOfValue, lrcFieldOf, List.take_left' (by simp)]

omit hf in
theorem charOf_chunkOfValue {v : Nat} (hv : v < 2 ^ (f.width - 1)) :
    f.charOf (chunkOfValue f v) = BitVec.ofNat 8 (f.base + v) := by
  rw [Framing.charOf, take_chunkOfValue, valueOfBits_testBit hv]

/-- No data value is encoded as the end sentinel (42_track_decoder R236). -/
theorem chunkOfValue_ne_endBits {v : Nat} (hv : isDataValue f v) : chunkOfValue f v ≠ f.endBits := by
  obtain ⟨hlt, hne⟩ := hv
  intro h
  have hvalue := hf.endBits_value
  rw [← h, take_chunkOfValue, valueOfBits_testBit hlt] at hvalue
  exact hne hvalue

omit hf in
theorem encodedTrack_eq (vals : List Nat) :
    encodedTrack f vals = f.frame (vals.map (chunkOfValue f)) (f.lrcOfChunks (vals.map (chunkOfValue f))) := by
  have hcolumn : ∀ j ∈ List.range (f.width - 1), ∀ v, (chunkOfValue f v).getD j false = v.testBit j := by
    intro j hj v
    have hj := List.mem_range.1 hj
    simp [chunkOfValue, lrcFieldOf, List.getElem?_append_left, hj]
  rw [encodedTrack, Framing.frame, Framing.lrcOfChunks, List.flatMap_def]
  refine congrArg (_ ++ lrcFieldOf ·) (List.map_congr_left fun j hj => ?_)
  simp only [List.map_map, Function.comp_def, hcolumn j hj]

theorem length_encodedTrack (vals : List Nat) : (encodedTrack f vals).length = f.width * (vals.length + 3) := by
  simp only [encodedTrack_eq, Framing.frame, List.length_append, hf.startBits_length, hf.endBits_length,
    length_lrcOfChunks hf, length_flatten_of_chunks (length_of_mem_map_chunkOfValue hf), List.length_map]
  ring

omit hf in
theorem verdict_of_good {cs : List (List Bool)} (h : ∀ c ∈ cs, oddOnes c = true) :
    f.verdict cs (f.lrcOfChunks cs) = .ok (f.startChar :: (cs.map f.charOf ++ [f.endChar])) := by
  have hgood : ¬ (cs.any fun c => !oddOnes c) = true := by simpa using h
  rw [Framing.verdict, if_neg hgood, if_neg (not_not.2 rfl)]

theorem ne_endBits_of_mem_map_chunkOfValue {vals : List Nat} (hvals : ∀ v ∈ vals, isDataValue f v) :
    ∀ c ∈ vals.map (chunkOfValue f), c ≠ f.endBits :=
  List.forall_mem_map.2 fun v hv => chunkOfValue_ne_endBits hf (hvals v hv)

/-- The round trip, as `Decode` answers it. -/
theorem decodeTrack_encodedTrack {lead tail b : List Bool} {vals : List Nat} (hvals : ∀ v ∈ vals, isDataValue f v)
    (hb : b = lead ++ encodedTrack f vals ++ tail) (hlead : ∀ k < lead.length, matchesAt b k f.startBits = false) :
    decodeTrack f b =
      .ok (f.startChar :: ((vals.map fun v => BitVec.ofNat 8 (f.base + v)) ++ [f.endChar])) := by
  rw [encodedTrack_eq] at hb
  rw [decodeTrack_frame hf (length_of_mem_map_chunkOfValue hf)
    (ne_endBits_of_mem_map_chunkOfValue hf hvals) (length_lrcOfChunks hf _) hb hlead,
    verdict_of_good (oddOnes_of_mem_map_chunkOfValue f vals), List.map_map]
  refine congrArg (fun l => Except.ok (f.startChar :: (l ++ [f.endChar]))) (List.map_congr_left fun v hv => ?_)
  exact charOf_chunkOfValue (hvals v hv).1
end EncodedTracks

/-- Settles O40: the encoded track is a frame of good chunks with the LRC they ask for. -/
theorem encodedTracksDecode : Obligations.EncodedTracksDecode := by
  unfold Obligations.EncodedTracksDecode
  intro s i f lead tail vals hi hfits hvals hb hlead
  have hf := Framing.WellFormed.of_mem_framings hi
  refine ⟨_, exec_decode_of_ok hi hfits (decodeTrack_encodedTrack hf hvals hb hlead), rfl, ?_, fun k hk => ?_⟩
  · have hlen := congrArg List.length hb
    have hpos := hf.width_pos
    have hbslen := s.csr.bslen.isLt
    have hle : vals.length + 3 ≤ f.width * (vals.length + 3) := Nat.le_mul_of_pos_left _ hpos
    rw [bitstring_length, List.length_append, List.length_append, length_encodedTrack hf] at hlen
    simp only [completeWith_csr, withCsr_csr, BitVec.toNat_ofNat, List.length_cons, List.length_append,
      List.length_map, List.length_nil]
    omega
  · refine dec_decoded (lt_of_lt_of_eq hk ?_)
    simp

/-! ### Single-bit corruption (42_track_decoder R250) -/

section Modify
variable {l r : List Bool} {n : Nat} (g : Bool → Bool)

theorem modify_append_left (h : n < l.length) : (l ++ r).modify n g = l.modify n g ++ r := by
  induction l generalizing n with
  | nil => exact absurd h (Nat.not_lt_zero n)
  | cons b l ih =>
    cases n with
    | zero => rfl
    | succ n => simp [ih (Nat.lt_of_succ_lt_succ h)]

theorem modify_append_right {k : Nat} (hk : l.length = k) : (l ++ r).modify (k + n) g = l ++ r.modify n g := by
  subst hk
  induction l with
  | nil => simp
  | cons b l ih => simp [Nat.add_right_comm, ih]

theorem modify_not_ne (h : n < l.length) : l.modify n not ≠ l := by
  intro heq
  have hodd := oddOnes_modify_not h
  rw [heq] at hodd
  exact absurd hodd (by simp)

/-- A flipped bit of the data is a flipped bit of one chunk. -/
theorem modify_flatten {cs : List (List Bool)} (h : n < cs.flatten.length) :
    ∃ before c after j, cs = before ++ c :: after ∧ j < c.length ∧
      cs.flatten.modify n g = (before ++ c.modify j g :: after).flatten := by
  induction cs generalizing n with
  | nil => exact absurd h (Nat.not_lt_zero n)
  | cons x cs ih =>
    by_cases hn : n < x.length
    · exact ⟨[], x, cs, n, rfl, hn, modify_append_left g hn⟩
    · obtain ⟨m, rfl⟩ := Nat.exists_eq_add_of_le (Nat.le_of_not_lt hn)
      rw [List.flatten_cons, List.length_append] at h
      obtain ⟨before, c, after, j, hcs, hj, heq⟩ := ih (n := m) (by omega)
      refine ⟨x :: before, c, after, j, by rw [hcs, List.cons_append], hj, ?_⟩
      rw [List.flatten_cons, modify_append_right g rfl, heq, List.cons_append, List.flatten_cons]
end Modify

section FlippedBits
variable {f : Framing} (hf : f.WellFormed) {lead field tail b : List Bool} {cs : List (List Bool)} {m : Nat}
include hf

/-- A flipped bit behind the start sentinel and before the end sentinel is a flipped bit of one chunk. -/
theorem frame_modify_data (hm : m < cs.flatten.length) :
    ∃ before c after j, cs = before ++ c :: after ∧ j < c.length ∧
      (f.frame cs field).modify (f.width + m) not = f.frame (before ++ c.modify j not :: after) field := by
  obtain ⟨before, c, after, j, hcs, hj, hflip⟩ := modify_flatten not hm
  refine ⟨before, c, after, j, hcs, hj, ?_⟩
  simp only [Framing.frame, List.append_assoc]
  rw [modify_append_right not hf.startBits_length, modify_append_left not hm, hflip]

theorem frame_modify_field (hcs : ∀ c ∈ cs, c.length = f.width) :
    (f.frame cs field).modify (f.width * (cs.length + 2) + m) not = f.frame cs (field.modify m not) := by
  refine modify_append_right not ?_
  rw [List.length_append, List.length_append, hf.startBits_length, hf.endBits_length, length_flatten_of_chunks hcs]
  ring

/-- A flipped bit of a data chunk: that chunk's parity is bad, so it is no end sentinel either and the frame still ends
where it did. -/
theorem decodeTrack_of_flipped_data (hcs : ∀ c ∈ cs, c.length = f.width) (hne : ∀ c ∈ cs, c ≠ f.endBits)
    (hodd : ∀ c ∈ cs, oddOnes c = true) (hfield : field.length = f.width) (hm : m < cs.flatten.length)
    (hb : b = lead ++ (f.frame cs field).modify (f.width + m) not ++ tail)
    (hlead : ∀ k < lead.length, matchesAt b k f.startBits = false) : decodeTrack f b = .error .parityError := by
  obtain ⟨before, c, after, j, rfl, hj, hflip⟩ := frame_modify_data hf (field := field) hm
  have hbad : oddOnes (c.modify j not) = false := by
    rw [oddOnes_modify_not hj, hodd c (by simp), Bool.not_true]
  have hmem : ∀ x ∈ before ++ c.modify j not :: after, x = c.modify j not ∨ x ∈ before ++ c :: after := by
    simp only [List.mem_append, List.mem_cons]
    tauto
  rw [hflip] at hb
  rw [decodeTrack_frame hf (fun x hx => ?_) (fun x hx => ?_) hfield hb hlead, Framing.verdict, if_pos (by simp [hbad])]
  · rcases hmem x hx with rfl | hx
    · rw [List.length_modify, hcs c (by simp)]
    · exact hcs x hx
  · rcases hmem x hx with rfl | hx
    · rintro heq
      rw [heq, hf.endBits_odd] at hbad
      cases hbad
    · exact hne x hx

/-- A flipped bit of the LRC field: it is no longer the field the chunks ask for. -/
theorem decodeTrack_of_flipped_field (hcs : ∀ c ∈ cs, c.length = f.width) (hne : ∀ c ∈ cs, c ≠ f.endBits)
    (hodd : ∀ c ∈ cs, oddOnes c = true) (hm : m < f.width)
    (hb : b = lead ++ (f.frame cs (f.lrcOfChunks cs)).modify (f.width * (cs.length + 2) + m) not ++ tail)
    (hlead : ∀ k < lead.length, matchesAt b k f.startBits = false) : decodeTrack f b = .error .checksumError := by
  have hlen := length_lrcOfChunks hf cs
  rw [frame_modify_field hf hcs] at hb
  rw [decodeTrack_frame hf hcs hne (by rw [List.length_modify, hlen]) hb hlead, Framing.verdict,
    if_neg (by simpa using hodd), if_pos (modify_not_ne (hlen.symm ▸ hm))]
end FlippedBits

/-- Settles O41: a flipped data bit spoils one chunk's parity and nothing else, a flipped LRC bit the field alone. -/
theorem flippedBitsAreDetected : Obligations.FlippedBitsAreDetected := by
  unfold Obligations.FlippedBitsAreDetected
  intro s i f lead tail vals n hi hfits hvals hn hb hlead
  have hf := Framing.WellFormed.of_mem_framings hi
  have hcs := length_of_mem_map_chunkOfValue hf (vals := vals)
  have hne := ne_endBits_of_mem_map_chunkOfValue hf hvals
  have hodd := oddOnes_of_mem_map_chunkOfValue f vals
  have hspan := length_flatten_of_chunks hcs
  rw [List.length_map] at hspan
  rw [length_encodedTrack hf] at hn
  rw [encodedTrack_eq] at hb
  refine ⟨_, exec_decode hi hfits, fun hlo hhi => ?_, fun hlo => ?_⟩
  · obtain ⟨m, rfl⟩ := Nat.exists_eq_add_of_le hlo
    have hm : m < (vals.map (chunkOfValue f)).flatten.length := by
      rw [hspan, Nat.mul_comm]
      rw [Nat.mul_succ] at hhi
      omega
    have hdec := decodeTrack_of_flipped_data hf hcs hne hodd (length_lrcOfChunks hf _) hm hb hlead
    simp [decodeBody, hdec]
  · obtain ⟨m, rfl⟩ := Nat.exists_eq_add_of_le hlo
    have hm : m < f.width := by
      rw [show f.width * (vals.length + 3) = f.width * (vals.length + 2) + f.width from Nat.mul_succ _ _] at hn
      omega
    rw [← List.length_map (chunkOfValue f)] at hb
    have hdec := decodeTrack_of_flipped_field hf hcs hne hodd hm hb hlead
    simp [decodeBody, hdec]

end Sys2Proof.Machine

/-! ### What a step of a transaction leaves, whatever its position -/

namespace Sys2Proof.Machine

section TransactionSteps
variable {s t : State} {i : Instr} {cmd : Word} {p : Point} {l : Locals}

theorem isTransaction_of_firstCode {q : Params} {code : Byte} (h : firstCode q i = some code) :
    isTransaction i = true := by
  cases i with
  | devReset | devCommtest | devReadiso | devReadraw | devWriteiso | devWriteraw | devErase | devModel | devFirmware
  | devLzquery | devXcmd => rfl
  | _ => cases h

/-- No instruction reaches the moves to come: taking a move off the agenda is the step's own. -/
theorem exec_agenda (ht : exec i s = .next t) : t.agenda = s.agenda :=
  ((params_agenda_keptBySteps s.params s.agenda).exec ⟨rfl, rfl⟩ ht).2

/-- At a position that neither sends nor receives, a transaction's step leaves the streams as they are. -/
theorem exec_sameStreams (hi : isTransaction i = true) (hseq : s.seq = .txn cmd p l) (hsend : p.waiting ≠ .send)
    (hrecv : p.waiting ≠ .recv) (ht : exec i s = .next t) : s.sameStreams t := by
  have hstreams := exec_transaction_streams hi hseq ht
  rw [exchangedAt_of_no_exchange (absurd · hsend) (absurd · hrecv)] at hstreams
  obtain ⟨hrx, hsent⟩ := streams_eq_iff.1 hstreams
  exact ⟨hrx, hsent, exec_agenda ht⟩

/-- What the pseudocode of a transaction does up to its first `Send` (43_serial_protocol R272 to R300). -/
def pseudocodeStart (q : Params) : Instr → State → State
  | .devReset => resetBegins
  | .devCommtest => commtestBegins
  | .devReadiso rty => readBegins rty 0x72#8
  | .devReadraw rty => readBegins rty 0x6D#8
  | .devWriteiso => writeBegins 0x77#8
  | .devWriteraw => writeBegins 0x6E#8
  | .devErase _ => eraseBegins
  | .devModel => queryBegins 0x74#8
  | .devFirmware => queryBegins 0x76#8
  | .devLzquery => queryBegins q.lzCmd
  | .devXcmd code => xcmdBegins code
  | _ => id

/-- A transaction that has begun is a step of its pseudocode. -/
theorem exec_eq_transactionStep (hi : isTransaction i = true) (hseq : s.seq = .txn cmd p l) :
    ∃ afterFrame sent received settled,
      exec i s = .next (transactionStep (pseudocodeStart s.params i) afterFrame sent received settled s) := by
  have hbegun (cmd' : Word) : s.inTransaction cmd' = s := inTransaction_of_txn s p l hseq
  cases i with
  | devReset | devCommtest | devReadiso | devReadraw | devWriteiso | devWriteraw | devErase | devModel | devFirmware
  | devLzquery | devXcmd =>
    exact ⟨_, _, _, _, congrArg (fun u => Host.Outcome.next (transactionStep _ _ _ _ _ u)) (hbegun _)⟩
  | _ => cases hi

end TransactionSteps

/-! ### The start of a transaction (43_serial_protocol R270 to R300, 44_retry R342) -/

section Starts
variable {s : State} {i : Instr} {cmd : Word}

theorem sendCmd_blocksAt {u : State} {p : Point} {l : Locals} (hseq : u.seq = .txn cmd p l)
    (hs : s.sameSurroundings u) (code : Byte) :
    s.blocksAt (u.sendCmd code) cmd (.frame (commandFrame code) .esc) l u.csr := moveTo_blocksAt hseq hs _

/-- A read offers its own frame, or in a retried read that of the device reset of its first attempt. -/
theorem readBegins_blocksAt (hseq : s.seq = .txn cmd .start .empty) (rty : Bool) (code : Byte) :
    s.blocksAt (readBegins rty code s) cmd (.frame (commandFrame (if rty then 0x61 else code)) .esc)
      (localsAtFirstFrame s.csr (.devReadiso rty)) (registersAtFirstFrame s.csr (.devReadiso rty)) := by
  cases rty with
  | false => exact readAttempt_blocksAt hseq ⟨rfl, rfl, rfl⟩ code
  | true =>
    have hlocals : (s.setLocals { attempts := 0, maxAtt := s.csr.ctrl.maxAtt }).seq =
        .txn cmd .start { attempts := 0, maxAtt := s.csr.ctrl.maxAtt } := by simp [State.setLocals, hseq]
    have hoffer := retryAttempt_blocksAt (s := s) hlocals
      ⟨setLocals_params _ _, setLocals_busReply _ _, setLocals_draws _ _⟩
    rw [setLocals_csr] at hoffer
    simp only [readBegins, if_true]
    exact hoffer

/-- Every transaction offers its first command frame. -/
theorem pseudocodeStart_blocksAt {code : Byte} (hcode : firstCode s.params i = some code)
    (hseq : s.seq = .txn cmd .start .empty) (hxcmd : ∀ arg, i = .devXcmd arg → s.csr.xtxlen.toNat ≤ 8) :
    s.blocksAt (pseudocodeStart s.params i s) cmd (.frame (commandFrame code) .esc) (localsAtFirstFrame s.csr i)
      (registersAtFirstFrame s.csr i) := by
  cases i with
  | devReset | devCommtest =>
    obtain rfl := Option.some.inj hcode
    exact sendCmd_blocksAt hseq ⟨rfl, rfl, rfl⟩ _
  | devReadiso rty | devReadraw rty =>
    obtain rfl := Option.some.inj hcode
    exact readBegins_blocksAt hseq rty _
  | devWriteiso | devWriteraw | devErase | devModel | devFirmware | devLzquery =>
    obtain rfl := Option.some.inj hcode
    exact sendCmd_blocksAt (u := s.clearReply) hseq ⟨rfl, rfl, rfl⟩ _
  | devXcmd arg =>
    obtain rfl := Option.some.inj hcode
    have hlegal : s.payloadLegal = true := decide_eq_true (hxcmd _ rfl)
    rw [pseudocodeStart, xcmdBegins, if_pos hlegal]
    exact sendCmd_blocksAt (u := s.clearReply) hseq ⟨rfl, rfl, rfl⟩ _
  | _ => cases hcode

/-- No transaction writes memory at its start. -/
theorem pseudocodeStart_mem (q : Params) (i : Instr) (s : State) : (pseudocodeStart q i s).mem = s.mem := by
  cases i with
  | devReadiso rty | devReadraw rty =>
    cases rty with
    | false => exact readAttempt_mem s _
    | true => exact (retryAttempt_mem _).trans (setLocals_mem _ _)
  | devReset | devCommtest | devWriteiso | devWriteraw | devErase | devModel | devFirmware | devLzquery =>
    exact moveTo_mem _ _
  | devXcmd code =>
    rw [pseudocodeStart, xcmdBegins]
    split
    · exact moveTo_mem _ _
    · rfl
  | _ => rfl
end Starts

/-- Settles O43: at its start each transaction runs its pseudocode up to the offer of its first command frame. -/
theorem transactionsStartWithTheirFrame : Obligations.TransactionsStartWithTheirFrame := by
  unfold Obligations.TransactionsStartWithTheirFrame
  intro s i cmd code _ hcode hseq hevent hxcmd
  have hi := isTransaction_of_firstCode hcode
  obtain ⟨_, _, _, _, hexec⟩ := exec_eq_transactionStep hi hseq
  rw [transactionStep_start hseq hevent.symm] at hexec
  exact ⟨_, hexec, readByte_of_mem_eq (pseudocodeStart_mem _ i s), exec_sameStreams hi hseq nofun nofun hexec,
    pseudocodeStart_blocksAt hcode hseq hxcmd⟩

/-! ### A transport error (43_serial_protocol R302, 44_retry R344) -/

/-- At a `Send` or a `Recv` a transport error ends the transaction, whatever its pseudocode. -/
theorem transactionStep_error {begins : State → State} {afterFrame : FrameWord → State → State}
    {sent : Point → State → State} {received : Point → Byte → State → State} {settled : State → State} {s : State}
    {cmd : Word} {p : Point} {l : Locals} (hseq : s.seq = .txn cmd p l) (hw : p.waiting = .send ∨ p.waiting = .recv)
    (he : s.event = some .error) :
    transactionStep begins afterFrame sent received settled s = s.completeWith .transportError := by
  cases p with
  | frame w b => simp only [transactionStep_frame hseq, frameStep, he]
  | start | settle => simp [Point.waiting] at hw
  | _ => simp [transactionStep, hseq, he, Point.waiting]

/-- The command word of a consistent transaction is the word of a transaction (60_exceptions R370). -/
theorem exists_encode_of_consistent {s : State} {cmd : Word} {p : Point} {l : Locals} (h : s.Consistent)
    (hseq : s.seq = .txn cmd p l) : ∃ i, encode i = .command cmd ∧ isTransaction i = true := by
  have haccepted := h.accepted
  simp only [State.acceptedCommand, hseq] at haccepted
  obtain ⟨-, -, hname⟩ := haccepted
  obtain ⟨i, hdec, hi⟩ := decodeCommand_of_namesTransaction hname
  exact ⟨i, encodeInvertsDecode (.command cmd) i hdec, hi⟩

theorem firstCode_ne_none {i : Instr} (hi : isTransaction i = true) (q : Params) : firstCode q i ≠ none := by
  cases i with
  | devReset | devCommtest | devReadiso | devReadraw | devWriteiso | devWriteraw | devErase | devModel | devFirmware
  | devLzquery | devXcmd => nofun
  | _ => cases hi

/-- Settles O46: the step is the transaction's, and at a `Send` or a `Recv` the error completes it. -/
theorem transportErrorEndsTheTransaction : Obligations.TransportErrorEndsTheTransaction := by
  unfold Obligations.TransportErrorEndsTheTransaction
  intro s cmd p l rest hcons hseq hw hagenda
  obtain ⟨i, henc, hi⟩ := exists_encode_of_consistent hcons hseq
  have hevent : s.event = some .error := by rw [State.event, hagenda, List.head?_cons]
  obtain ⟨_, _, _, _, hexec⟩ := exec_eq_transactionStep hi hseq
  rw [transactionStep_error hseq hw hevent] at hexec
  have hstep := step_of_transaction henc (firstCode_ne_none hi s.params) hseq hagenda rfl
  rw [hexec] at hstep
  refine ⟨_, hstep, completeWith_endsWith (u := s) ⟨rfl, rfl, rfl⟩ .transportError, fun _ => rfl, rfl, rfl, ?_⟩
  rw [pop_agenda, completeWith_agenda, hagenda, List.tail_cons]

/-! ### The settle wait (60_exceptions R384) -/

/-- A tick of the settle wait is counted, and after the last one the transaction goes on. -/
theorem exec_settle {s : State} {i : Instr} {cmd : Word} {left : Nat} {l : Locals}
    (hi : i ∈ [Instr.devReset, .devReadiso true, .devReadraw true]) (hseq : s.seq = .txn cmd (.settle left) l)
    (he : s.event = some .tick) :
    exec i s = .next (if left ≤ 1 then
        if i = .devReset then s.completeWith .none else readAttempt (readCode i) s
      else s.moveTo (.settle (left - 1))) := by
  simp only [List.mem_cons, List.not_mem_nil, or_false] at hi
  rcases hi with rfl | rfl | rfl
  · rw [exec, execDevReset, inTransaction_of_txn _ _ _ hseq, transactionStep_tick hseq he, if_pos rfl]
  all_goals
    rw [exec_read (rty := true) (by simp) hseq, transactionStep_tick hseq he]
    simp only [reduceCtorEq, if_false]

/-- Settles O48: every tick but the last is a move to the same wait with one tick less. -/
theorem settleWaitCountsTicks : Obligations.SettleWaitCountsTicks := by
  unfold Obligations.SettleWaitCountsTicks
  intro s i cmd left l _ hmem hseq hevent
  have hexec := exec_settle hmem hseq hevent
  have hi : isTransaction i = true := by
    simp only [List.mem_cons, List.not_mem_nil, or_false] at hmem
    rcases hmem with rfl | rfl | rfl
    all_goals rfl
  have hs : s.sameSurroundings s := ⟨rfl, rfl, rfl⟩
  refine ⟨_, hexec, readByte_of_mem_eq ?_, exec_sameStreams hi hseq nofun nofun hexec, fun hmore => ?_, ?_, ?_, ?_⟩
  · split_ifs
    · rfl
    · exact readAttempt_mem s _
    · exact moveTo_mem _ _
  · rw [if_neg (by omega)]
    exact moveTo_blocksAt hseq hs _
  · rintro hlast rfl
    rw [if_pos hlast, if_pos rfl]
    exact completeWith_endsWith hs .none
  · rintro hlast rfl
    rw [if_pos hlast, if_neg nofun]
    exact readAttempt_blocksAt hseq hs _
  · rintro hlast rfl
    rw [if_pos hlast, if_neg nofun]
    exact readAttempt_blocksAt hseq hs _

end Sys2Proof.Machine

/-! ### A byte of a read response (43_serial_protocol R276 to R285) -/

namespace Sys2Proof.Machine

/-- What a move to the next track or the trailer leaves, as the statements say it (43_serial_protocol R278, R284). -/
theorem nextTrack_blocksAt {s u : State} {cmd : Word} {q : Point} {l : Locals} (hseq : u.seq = .txn cmd q l)
    (hs : s.sameSurroundings u) (htrailer : 0 < u.params.readTrailerLen) (rty : Bool) (t : Track) (carry : Bool) :
    s.blocksAt (nextTrack rty t carry u) cmd (pointAfterTrack u.params carry t) l u.csr := by
  cases t with
  | t1 | t2 =>
    cases carry
    all_goals exact moveTo_blocksAt hseq hs _
  | t3 =>
    simp only [nextTrack, Track.following, readTrailer, receiveReply_of_pos (Nat.ne_of_gt htrailer)]
    exact moveTo_blocksAt hseq hs _

theorem trackError_csr (s : State) (t : Track) : (s.trackError t).csr = afterTrackError s.csr t := by
  cases t
  all_goals rfl

section ReceivedBytes
variable {s : State} {rty : Bool} {p : Point} {t : Track} {b : Byte}

/-- START ends the scan (43_serial_protocol R277). -/
theorem readReceived_start (k : Nat) : readReceived rty (.scan k) 0x73#8 s = s.moveTo (.headerEsc .t1) := rfl

/-- Another byte, when no more may be examined, ends the attempt (43_serial_protocol R277). -/
theorem readReceived_scan_last {k : Nat} (hb : b ≠ 0x73#8) (hk : s.params.startScan ≤ k + 1) :
    readReceived rty (.scan k) b s = endAttempt rty .framingError s := by
  have hstart : b ≠ startByte := hb
  simp only [readReceived, if_neg hstart, if_neg (Nat.not_lt.2 hk)]

/-- A header byte that does not match is an error of its track (43_serial_protocol R278, R283). -/
theorem readReceived_headerError (h : p = .headerEsc t ∧ b ≠ 0x1B#8 ∨ p = .headerNum t ∧ b ≠ t.wireNumber) :
    readReceived rty p b s = nextTrack rty t false (s.trackError t) := by
  rcases h with ⟨rfl, hb⟩ | ⟨rfl, hb⟩
  all_goals exact if_neg hb

/-- END ends the track (43_serial_protocol R281). -/
theorem readReceived_end : readReceived rty (.trackData t) 0x3F#8 s = nextTrack rty t false s := rfl

/-- An error delimiter is an error of its track, and an ESC one the first header byte of the next (43_serial_protocol
R281, R282). -/
theorem readReceived_delimiter (hend : b ≠ 0x3F#8) (hdelim : b ∈ s.params.errDelims) :
    readReceived rty (.trackData t) b s = nextTrack rty t (decide (b = 0x1B#8)) (s.trackError t) := by
  have hend' : b ≠ endByte := hend
  simp only [readReceived, if_neg hend', List.contains_iff_mem.2 hdelim, if_true]
  rfl

/-- A data byte beyond the track's capacity is counted only (43_serial_protocol R280). -/
theorem storeTrackByte_of_full (h : (s.tk t).cap.toNat ≤ (s.tk t).len.toNat) :
    s.storeTrackByte t b = s.setTk t { s.tk t with
      wire := BitVec.ofNat 16 (min ((s.tk t).wire.toNat + 1) (2 ^ s.params.wireW - 1)) } := by
  rw [← saturate_setWidth]
  exact (storeTrackByte_cases s t b).elim (fun hroom => absurd (BitVec.lt_def.1 hroom.1) (Nat.not_lt.2 h)) And.right

/-- A data byte the track has room for is stored behind the others and counted (43_serial_protocol R280). -/
theorem storeTrackByte_of_room (h : (s.tk t).len.toNat < (s.tk t).cap.toNat) :
    s.storeTrackByte t b = (s.writeTrk t (s.tk t).len.toNat [b]).setTk t { s.tk t with
      len := BitVec.ofNat 8 ((s.tk t).len.toNat + 1)
      wire := BitVec.ofNat 16 (min ((s.tk t).wire.toNat + 1) (2 ^ s.params.wireW - 1)) } := by
  rw [← saturate_setWidth, BitVec.ofNat_add, BitVec.ofNat_toNat, BitVec.setWidth_eq]
  exact (storeTrackByte_cases s t b).elim And.right fun hfull => absurd (BitVec.lt_def.2 h) hfull.1

/-- The last trailer byte gives the result of the attempt, DeviceStatusError before FramingError (43_serial_protocol
R271, R285). -/
theorem readReceived_reply_last :
    readReceived rty (.reply 1) b s =
      endAttempt rty
        (if b ≠ 0x30#8 then .deviceStatusError else if s.csr.status.tkerr ≠ 0 then .framingError else .none)
        ((s.appendReply b).setLaststat b) := by
  have htkerr : ((s.appendReply b).setLaststat b).csr.status.tkerr = s.csr.status.tkerr :=
    (congrArg Status.tkerr (appendReply_status s b) :)
  have hok : okByte = 0x30#8 := rfl
  simp only [readReceived, replyReceived, le_refl, if_true, readFinish, htkerr, hok]
  split_ifs
  all_goals rfl

/-- A trailer byte before the last is appended only (43_serial_protocol R284). -/
theorem readReceived_reply_more {left : Nat} (h : 2 ≤ left) :
    readReceived rty (.reply left) b s = (s.appendReply b).moveTo (.reply (left - 1)) := if_neg (by omega)

/-! No byte but track data writes memory. -/

theorem nextTrack_mem (s : State) (t : Track) (carry : Bool) : (nextTrack rty t carry s).mem = s.mem := by
  cases t with
  | t1 | t2 =>
    cases carry
    all_goals exact moveTo_mem _ _
  | t3 => exact receiveReply_mem s _ (endAttempt_mem s rty _)

theorem readFinish_mem (s : State) : (readFinish rty b s).mem = s.mem := by
  simp only [readFinish]
  split_ifs
  all_goals exact endAttempt_mem (s.setLaststat b) rty _

theorem readReceived_mem (hp : ∀ t, p ≠ .trackData t) : (readReceived rty p b s).mem = s.mem := by
  cases p with
  | scan k =>
    simp only [readReceived]
    split_ifs
    · exact moveTo_mem _ _
    · exact moveTo_mem _ _
    · exact endAttempt_mem s rty _
  | headerEsc t | headerNum t =>
    simp only [readReceived]
    split_ifs
    · exact moveTo_mem _ _
    · exact nextTrack_mem (s.trackError t) t false
  | trackData t => exact absurd rfl (hp t)
  | reply left =>
    simp only [readReceived, replyReceived]
    split_ifs
    · rw [readFinish_mem, appendReply_mem]
    · rw [moveTo_mem, appendReply_mem]
  | _ => rfl
end ReceivedBytes

/-- The state with these bytes queued for the block. -/
def State.withStream (s : State) (rx : List Byte) : State := { s with rx := rx }

section Deliveries
variable {s t : State} {i : Instr} {rty : Bool} {cmd : Word} {p : Point} {l : Locals} {b : Byte} {rest : List Byte}

theorem isTransaction_of_read (hi : i ∈ [Instr.devReadiso rty, .devReadraw rty]) : isTransaction i = true := by
  simp only [List.mem_cons, List.not_mem_nil, or_false] at hi
  rcases hi with rfl | rfl
  all_goals rfl

/-- At a `Recv` of a read the step receives the next byte, and nothing else of the streams or the agenda changes
(60_exceptions R381). -/
theorem exec_read_deliver (hi : i ∈ [Instr.devReadiso rty, .devReadraw rty]) (hseq : s.seq = .txn cmd p l)
    (he : s.event = some .deliver) (hrx : s.rx = b :: rest) (hw : p.waiting = .recv) (ht : exec i s = .next t) :
    t = readReceived rty p b (s.withStream rest) ∧ t.rx = rest ∧ t.sent = s.sent ∧ t.agenda = s.agenda := by
  have hstreams := exec_transaction_streams (isTransaction_of_read hi) hseq ht
  rw [exchangedAt_deliver hw he, hrx, List.tail_cons] at hstreams
  obtain ⟨hrest, hsent⟩ := Prod.mk.inj hstreams
  refine ⟨?_, hrest, hsent, exec_agenda ht⟩
  rw [exec_read hi hseq, transactionStep_deliver hseq hw he hrx] at ht
  exact (Host.Outcome.next.inj ht).symm
end Deliveries

/-- Settles O49: each byte of the scan and of a header is received, and the read goes on as its position says. -/
theorem readHeadersAreChecked : Obligations.ReadHeadersAreChecked := by
  unfold Obligations.ReadHeadersAreChecked
  intro s rty i cmd p l b rest _ hi hseq hevent hrx htrailer
  obtain ⟨t, ht⟩ := exists_exec_eq_next i s
  have hdeliver := fun hw => exec_read_deliver hi hseq hevent hrx hw ht
  have hs : s.sameSurroundings (s.withStream rest) := ⟨rfl, rfl, rfl⟩
  refine ⟨t, ht, ?_, ?_, ?_, ?_, ?_, fun u herror => ?_, fun hp => ?_⟩
  · rintro k rfl rfl
    rw [(hdeliver rfl).1, readReceived_start]
    exact moveTo_blocksAt (u := s.withStream rest) hseq hs _
  · rintro k rfl hb hk
    rw [(hdeliver rfl).1, readReceived_scan (s := s.withStream rest) hb hk]
    exact moveTo_blocksAt (u := s.withStream rest) hseq hs _
  · rintro k rfl hb hk
    rw [(hdeliver rfl).1, readReceived_scan_last (s := s.withStream rest) hb hk]
    exact endAttempt_attemptEnds (u := s.withStream rest) hseq hs rty _
  · rintro u rfl rfl
    rw [(hdeliver rfl).1]
    exact moveTo_blocksAt (u := s.withStream rest) hseq hs _
  · rintro u rfl rfl
    rw [(hdeliver rfl).1, readReceived, if_pos rfl]
    exact moveTo_blocksAt (u := s.withStream rest) hseq hs _
  · have hw : p.waiting = .recv := by
      rcases herror with ⟨rfl, -⟩ | ⟨rfl, -⟩
      all_goals rfl
    have hnext := nextTrack_blocksAt (u := (s.withStream rest).trackError u) hseq hs htrailer rty u false
    rw [trackError_csr] at hnext
    rw [(hdeliver hw).1, readReceived_headerError (s := s.withStream rest) herror]
    exact hnext
  · have hrecv : p.waiting = .recv ∧ ∀ u, p ≠ .trackData u := by
      rcases hp with ⟨k, rfl⟩ | ⟨u, rfl | rfl⟩
      all_goals exact ⟨rfl, nofun⟩
    obtain ⟨hw, hdata⟩ := hrecv
    obtain ⟨rfl, hstreams⟩ := hdeliver hw
    exact ⟨readByte_of_mem_eq (readReceived_mem hdata), hstreams⟩

/-- Settles O50: END and the delimiters lead on, any other byte is stored while the track has room. -/
theorem trackBytesAreCountedAndBounded : Obligations.TrackBytesAreCountedAndBounded := by
  unfold Obligations.TrackBytesAreCountedAndBounded
  intro s rty i cmd u l b rest _ hi hseq hevent hrx _ htrailer
  obtain ⟨t, ht⟩ := exists_exec_eq_next i s
  obtain ⟨rfl, hrest, hsent, hagenda⟩ := exec_read_deliver hi hseq hevent hrx rfl ht
  have hs : s.sameSurroundings (s.withStream rest) := ⟨rfl, rfl, rfl⟩
  refine ⟨_, ht, hrest, hsent, hagenda, ?_, fun hend hdelim => ?_, fun hend hdelim hfull => ?_,
    fun hend hdelim hroom => ?_⟩
  · rintro rfl
    rw [readReceived_end]
    exact ⟨readByte_of_mem_eq (nextTrack_mem (s.withStream rest) u false),
      nextTrack_blocksAt (u := s.withStream rest) hseq hs htrailer rty u false⟩
  · have hnext := nextTrack_blocksAt (u := (s.withStream rest).trackError u) hseq hs htrailer rty u
      (decide (b = 0x1B#8))
    rw [trackError_csr] at hnext
    rw [readReceived_delimiter (s := s.withStream rest) hend hdelim]
    exact ⟨readByte_of_mem_eq (nextTrack_mem ((s.withStream rest).trackError u) u _), hnext⟩
  · rw [readReceived_trackData (s := s.withStream rest) hend hdelim,
      storeTrackByte_of_full (s := s.withStream rest) hfull]
    exact ⟨readByte_of_mem_eq (moveTo_mem _ _), moveTo_blocksAt (u := (s.withStream rest).setTk u _) hseq hs _⟩
  · rw [readReceived_trackData (s := s.withStream rest) hend hdelim,
      storeTrackByte_of_room (s := s.withStream rest) hroom]
    have hmem (v : State) (r : TrackRegs) (a : Nat) :
        ((v.setTk u r).moveTo (.trackData u)).readByte a = v.readByte a := readByte_of_mem_eq (moveTo_mem _ _) a
    refine ⟨?_, fun a ha => ?_,
      moveTo_blocksAt (u := ((s.withStream rest).writeTrk u _ _).setTk u _) hseq hs _⟩
    · exact (hmem _ _ _).trans (trk_writeTrk (s.withStream rest) u _ 0 [b] (by simp))
    · exact (hmem _ _ _).trans (readByte_writeBytes_outside (s.withStream rest) _ a [b] ha)

/-- Settles O51: each trailer byte is appended, and the last one ends the attempt with its result. -/
theorem lastTrailerByteDecidesTheRead : Obligations.LastTrailerByteDecidesTheRead := by
  unfold Obligations.LastTrailerByteDecidesTheRead
  rintro s rty i cmd left l b rest e c _ hi hseq hevent hrx hroom rfl rfl
  obtain ⟨t, ht⟩ := exists_exec_eq_next i s
  obtain ⟨rfl, hrest, hsent, hagenda⟩ := exec_read_deliver hi hseq hevent hrx rfl ht
  have happend : (s.withStream rest).appendReply b = (s.withStream rest).withCsr
      { s.csr with
        respb := s.csr.respb.setIfInBounds s.csr.resplen.toNat b
        resplen := BitVec.ofNat 5 (s.csr.resplen.toNat + 1) } := by
    rw [BitVec.ofNat_add, BitVec.ofNat_toNat, BitVec.setWidth_eq]
    exact if_pos hroom
  refine ⟨_, ht, readByte_of_mem_eq (readReceived_mem nofun), hrest, hsent, hagenda, fun hmore => ?_, ?_⟩
  · rw [readReceived_reply_more hmore, happend]
    exact moveTo_blocksAt (u := (s.withStream rest).withCsr _) hseq ⟨rfl, rfl, rfl⟩ _
  · rintro rfl
    rw [readReceived_reply_last, happend]
    exact endAttempt_attemptEnds (u := ((s.withStream rest).withCsr _).setLaststat b) hseq
      ⟨rfl, rfl, rfl⟩ rty _

end Sys2Proof.Machine

/-! ### Taking a move off the agenda -/

namespace Sys2Proof.Machine

section Pops
variable (s : State)

theorem moveTo_pop (p : Point) : (s.moveTo p).pop = s.pop.moveTo p := by
  unfold State.moveTo
  rw [pop_seq]
  split
  all_goals rfl

theorem settleWait_pop {after : State → State} (h : ∀ u, (after u).pop = after u.pop) :
    (s.settleWait after).pop = s.pop.settleWait after := by
  unfold State.settleWait
  rw [pop_params, ← h, ← moveTo_pop, apply_ite State.pop]

end Pops

/-! ### Waiting the settle ticks (60_exceptions R384) -/

theorem settleWait_blockedAt (s : State) (cmd : Word) (p : Point) (l : Locals) (after : State → State) :
    (s.blockedAt cmd p l).settleWait after =
      if s.params.settleTicks = 0 then after (s.blockedAt cmd p l)
      else s.blockedAt cmd (.settle s.params.settleTicks) l := rfl

namespace Pseudocode
variable {cmd : Word} {begins : State → State} {afterFrame : FrameWord → State → State} {sent : Point → State → State}
  {received : Point → Byte → State → State} {settled : State → State} {l : Locals}
  (hcode : Pseudocode cmd begins afterFrame sent received settled)
include hcode

theorem step_tick {s : State} {left : Nat} {rest : List Action} (hagenda : s.agenda = .tick :: rest) :
    Machine.step (s.blockedAt cmd (.settle left) l) =
      .next (if left ≤ 1 then settled (s.blockedAt cmd (.settle left) l)
        else s.blockedAt cmd (.settle (left - 1)) l).pop := by
  rw [hcode.step (blockedAt_seq ..) hagenda rfl,
    transactionStep_tick (blockedAt_seq ..) (by simp [State.event, hagenda]), blockedAt_moveTo]

/-- Every tick but the last is counted, and nothing else changes. -/
theorem waits_ticks (s : State) (n : Nat) :
    State.leadsTo cmd l s (.settle (n + 1)) (List.replicate n .tick) [] [] s (.settle 1) := by
  induction n with
  | zero => exact leadsTo_refl
  | succ n ih =>
    have htick : State.leadsTo cmd l s (.settle (n + 1 + 1)) [.tick] [] [] s (.settle (n + 1)) := by
      intro more before rest
      rw [List.length_singleton, runs_one (hcode.step_tick (rest := rest) rfl), if_neg (by omega), Nat.add_sub_cancel,
        List.append_nil]
      rfl
    exact htick.trans ih

/-- The settle wait lasts `P_SETTLE_TICKS` ticks, and none at all when that is 0; then the transaction goes on, whatever
the position it waited at. -/
theorem runs_settleWait (hpoint : ∀ u p q, settled (State.blockedAt u cmd p l) = settled (u.blockedAt cmd q l))
    (hpop : ∀ u, (settled u).pop = settled u.pop) {s : State} {p : Point} {rest : List Action}
    (hagenda : s.agenda = List.replicate s.params.settleTicks .tick ++ rest) :
    runs s.params.settleTicks ((s.blockedAt cmd p l).settleWait settled) =
      .next (settled (State.blockedAt { s with agenda := rest } cmd p l)) := by
  rw [settleWait_blockedAt]
  cases hn : s.params.settleTicks with
  | zero =>
    rw [hn] at hagenda
    obtain rfl : s.agenda = rest := hagenda
    rw [if_pos rfl, runs_zero]
  | succ n =>
    rw [hn, List.replicate_succ', List.append_assoc, List.singleton_append] at hagenda
    have hticks := hcode.waits_ticks (l := l) s n s.rx s.sent (.tick :: rest)
    rw [List.length_replicate, List.nil_append, List.append_nil, ← hagenda] at hticks
    have hlast := hcode.step_tick (s := s.wired s.rx s.sent (.tick :: rest)) (left := 1) (l := l) rfl
    rw [if_pos (Nat.le_refl 1), hpop, blockedAt_pop, hpoint _ _ p] at hlast
    rw [if_neg n.succ_ne_zero]
    exact (runs_add 1 hticks).trans (runs_one hlast)
end Pseudocode

/-! ### DEV.RESET (43_serial_protocol R272) -/

theorem reset_pseudocode :
    Pseudocode 0x00000030#32 resetBegins resetAfterFrame noPosition noReceive (fun s => s.completeWith .none) where
  step hseq hagenda ha := by
    rw [step_of_transaction (i := .devReset) rfl nofun hseq hagenda ha]
    simp only [exec, execDevReset, inTransaction_of_txn _ _ _ hseq, popNext]

/-- Settles O53: the frame is sent, and the settle wait completes. -/
theorem deviceResetRunsToCompletion : Obligations.DeviceResetRunsToCompletion := by
  unfold Obligations.DeviceResetRunsToCompletion
  intro s rest hseq hagenda
  have hbegins : resetBegins s = s.blockedAt _ (.frame (commandFrame 0x61#8) .esc) .empty :=
    moveTo_eq_blockedAt _ .start _ _ hseq
  have hframe := reset_pseudocode.runs_frame hseq hagenda hbegins rfl
  rw [resetAfterFrame, settleWait_pop (after := fun s => s.completeWith .none) _ fun _ => rfl] at hframe
  have hwait := reset_pseudocode.runs_settleWait (l := .empty) (rest := rest) (p := .frame (commandFrame 0x61#8) .code)
    (fun _ _ _ => rfl) (fun _ => rfl)
    (s := s.wired s.rx (s.sent ++ [0x1B#8, 0x61#8]) (List.replicate s.params.settleTicks .tick ++ rest)) rfl
  exact ⟨_, (runs_add _ hframe).trans hwait, completeWith_endsWith (u := s) ⟨rfl, rfl, rfl⟩ .none, fun _ => rfl, rfl,
    rfl, rfl⟩

/-! ### DEV.COMMTEST (43_serial_protocol R273) -/

theorem commtest_pseudocode :
    Pseudocode 0x00000031#32 commtestBegins commtestAfterFrame noPosition commtestReceived id where
  step hseq hagenda ha := by
    rw [step_of_transaction (i := .devCommtest) rfl nofun hseq hagenda ha]
    simp only [exec, execDevCommtest, inTransaction_of_txn _ _ _ hseq, popNext]

/-- Bytes other than `P_COMMTEST_OK` are discarded. -/
theorem commtest_receives (s : State) (l : Locals) (junk : List Byte) (hjunk : s.params.commtestOk ∉ junk) :
    State.receives 0x00000031#32 l s .commtest junk s .commtest := by
  induction junk with
  | nil => exact leadsTo_refl
  | cons b junk ih =>
    obtain ⟨hb, hjunk⟩ := not_or.1 (List.mem_cons.not.1 hjunk)
    have hbyte : State.receives 0x00000031#32 l s .commtest [b] s .commtest :=
      commtest_pseudocode.receives_byte rfl fun _ _ _ => if_neg (Ne.symm hb)
    exact hbyte.trans (ih hjunk)

/-- `P_COMMTEST_OK` completes. -/
theorem commtestReceived_ok {s : State} {b : Byte} (hb : b = s.params.commtestOk) :
    commtestReceived .commtest b s = s.completeWith .none := if_pos hb

/-- Settles O54: the frame is sent, the bytes before the OK byte are discarded, and the OK byte completes. -/
theorem communicationTestResynchronises : Obligations.CommunicationTestResynchronises := by
  unfold Obligations.CommunicationTestResynchronises
  intro s junk more rest hseq hjunk hrx hagenda
  have hmoves : s.agenda =
      .block :: .take :: .take :: (List.replicate junk.length .deliver ++ .deliver :: rest) := by
    rw [hagenda, List.replicate_succ']
    simp
  have hbegins : commtestBegins s = s.blockedAt _ (.frame (commandFrame 0x65#8) .esc) .empty :=
    moveTo_eq_blockedAt _ .start _ _ hseq
  have hframe := commtest_pseudocode.runs_frame hseq hmoves hbegins rfl
  have hbytes := commtest_receives s .empty junk hjunk (s.params.commtestOk :: more) (s.sent ++ [0x1B#8, 0x65#8])
    (.deliver :: rest)
  rw [List.length_replicate, ← hrx, List.append_nil] at hbytes
  have hlast := commtest_pseudocode.step_deliver_wired (l := .empty) (s := s) (b := s.params.commtestOk) (more := more)
    (before := s.sent ++ [0x1B#8, 0x65#8]) (rest := rest) (p := .commtest) rfl
  rw [commtestReceived_ok] at hlast
  · exact ⟨_, (runs_add _ hframe).trans ((runs_add 1 hbytes).trans (runs_one hlast)),
      completeWith_endsWith (u := s) ⟨rfl, rfl, rfl⟩ .none, fun _ => rfl, rfl, rfl, rfl⟩
  · rfl

/-! ### Fixed-size responses (43_serial_protocol R294 to R298) -/

/-- The state once a command has sent these bytes and has its response in the buffer, the bytes behind it still
queued. -/
def State.afterExchange (s : State) (bytes resp more : List Byte) (rest : List Action) : State :=
  { s with
    csr := Csr.pushAll { s.csr with resplen := 0 } resp
    rx := more
    sent := s.sent ++ bytes
    agenda := rest }

/-- A fixed-size response is received whole, and what follows its last byte is `finish`. -/
theorem Pseudocode.runs_response {cmd : Word} {begins : State → State} {afterFrame : FrameWord → State → State}
    {sent : Point → State → State} {finish : Byte → State → State} {settled : State → State} {l : Locals}
    (hcode : Pseudocode cmd begins afterFrame sent (replyReceived finish) settled) {s : State}
    {bytes resp more : List Byte} {rest : List Action} (hresp : resp ≠ []) :
    runs resp.length ((s.clearReply.wired (resp ++ more) (s.sent ++ bytes)
        (List.replicate resp.length .deliver ++ rest)).blockedAt cmd (.reply resp.length) l) =
      .next (finish (resp.getLastD 0) ((s.afterExchange bytes resp more (.deliver :: rest)).blockedAt cmd
        (.reply 1) l)).pop := by
  obtain ⟨firsts, b, rfl⟩ := (List.eq_nil_or_concat' resp).resolve_left hresp
  have hlen : (firsts ++ [b]).length = firsts.length + 1 := by simp
  have hlast : (firsts ++ [b]).getLastD 0 = b := by simp
  rw [hlen, hlast, hcode.runs_reply (b := b) (more := more) (rest := rest) firsts (by simp [State.wired])
    (by rw [List.replicate_succ']; simp [State.wired])]
  rfl

section Exchange
variable {s : State} {bytes resp more : List Byte} {rest : List Action}

theorem afterExchange_responseIs (e : ErrCode) (hfits : resp.length ≤ 16) :
    s.responseIs ((s.afterExchange bytes resp more rest).completeWith e) resp := responseIs_of_pushAll hfits rfl rfl

theorem afterExchange_respByte (hfits : resp.length ≤ 16) {j : Nat} (hj : j < resp.length) :
    (s.afterExchange bytes resp more rest).respByte j = resp.getD j 0 := by
  obtain ⟨-, hbytes⟩ := afterExchange_responseIs (s := s) (bytes := bytes) (more := more) (rest := rest) .none hfits
  exact (hbytes j (by omega)).trans (if_pos hj)

/-- A response that is not checked as a status leaves LASTSTAT as it was. -/
theorem afterExchange_endsWith (e : ErrCode) :
    s.endsWith ((s.afterExchange bytes resp more rest).completeWith e)
      { s.csr with
        resplen := ((s.afterExchange bytes resp more rest).completeWith e).csr.resplen
        respb := ((s.afterExchange bytes resp more rest).completeWith e).csr.respb } e :=
  endsWith_of_afterResponse (resp := resp) (last := s.csr.status.laststat) (afterResponse_self ..).symm ⟨rfl, rfl, rfl⟩

/-- A response whose last byte is checked as a status (43_serial_protocol R271). -/
theorem afterExchange_setLaststat_endsWith (b : Byte) (e : ErrCode) :
    s.endsWith (((s.afterExchange bytes resp more rest).setLaststat b).completeWith e)
      { s.csr with
        resplen := (((s.afterExchange bytes resp more rest).setLaststat b).completeWith e).csr.resplen
        respb := (((s.afterExchange bytes resp more rest).setLaststat b).completeWith e).csr.respb
        status := { s.csr.status with laststat := b } } e :=
  endsWith_of_afterResponse (resp := resp) (afterResponse_eq ..).symm ⟨rfl, rfl, rfl⟩
end Exchange

/-! ### DEV.ERASE (43_serial_protocol R294) -/

theorem erase_pseudocode (mask : Byte) :
    Pseudocode (commandWord mask false 0 0x36) eraseBegins (eraseAfterFrame mask) eraseSent
      (replyReceived checkStatusAndComplete) id where
  step hseq hagenda ha := by
    rw [step_of_transaction (i := .devErase mask) rfl nofun hseq hagenda ha]
    simp only [exec, execDevErase, inTransaction_of_txn _ _ _ hseq, popNext]

/-- DEV.ERASE up to its status: the frame and the mask are sent. -/
theorem runs_erase_sends {s : State} {mask : Byte} {l : Locals} {rest : List Action}
    (hseq : s.seq = .txn (commandWord mask false 0 0x36) .start l) (hlen : s.params.eraseLen ≠ 0)
    (hagenda : s.agenda = .block :: .take :: .take :: .take :: rest) :
    runs 4 s = .next ((s.clearReply.wired s.rx (s.sent ++ [0x1B#8, 0x63#8, mask]) rest).blockedAt
      (commandWord mask false 0 0x36) (.reply s.params.eraseLen) l) := by
  have hbegins : eraseBegins s = s.clearReply.blockedAt _ (.frame (commandFrame 0x63#8) .esc) l :=
    moveTo_eq_blockedAt _ .start _ l hseq
  have hframe := (erase_pseudocode mask).runs_frame hseq hagenda hbegins rfl
  have hmask : State.sends (commandWord mask false 0 0x36) l s.clearReply (.eraseMask mask) [mask]
      (.reply s.params.eraseLen) :=
    (erase_pseudocode mask).sends_byte nofun rfl fun _ _ _ => if_neg hlen
  have hsends := hmask s.rx (s.sent ++ [0x1B#8, 0x63#8]) rest
  rw [List.append_assoc] at hsends
  exact (runs_add 1 hframe).trans hsends

/-- Settles O56: the frame, the mask and the status, whose last byte decides. -/
theorem eraseSendsItsMask : Obligations.EraseSendsItsMask := by
  unfold Obligations.EraseSendsItsMask
  intro s mask resp more rest hseq hlen hpos hfits hrx hagenda
  have hsends := runs_erase_sends hseq (by omega) hagenda
  rw [← hlen, hrx] at hsends
  have hresponse := (erase_pseudocode mask).runs_response (l := .empty) (s := s) (bytes := [0x1B#8, 0x63#8, mask])
    (more := more) (rest := rest) (List.ne_nil_of_length_pos hpos)
  exact ⟨((s.afterExchange [0x1B#8, 0x63#8, mask] resp more rest).setLaststat (resp.getLastD 0)).completeWith
      (statusVerdict (resp.getLastD 0)), (runs_add _ hsends).trans hresponse, responseIs_of_pushAll hfits rfl rfl,
    afterExchange_setLaststat_endsWith _ _, fun _ => rfl, rfl, rfl, rfl⟩

end Sys2Proof.Machine

/-! ### The queries (43_serial_protocol R295 to R298) -/

namespace Sys2Proof.Machine

theorem model_pseudocode :
    Pseudocode 0x00000037#32 (queryBegins 0x74#8) modelAfterFrame noPosition (replyReceived modelFinish) id where
  step hseq hagenda ha := by
    rw [step_of_transaction (i := .devModel) rfl nofun hseq hagenda ha]
    simp only [exec, execDevModel, inTransaction_of_txn _ _ _ hseq, popNext]

theorem firmware_pseudocode :
    Pseudocode 0x00000038#32 (queryBegins 0x76#8) firmwareAfterFrame noPosition (replyReceived escapeFinish) id where
  step hseq hagenda ha := by
    rw [step_of_transaction (i := .devFirmware) rfl nofun hseq hagenda ha]
    simp only [exec, execDevFirmware, inTransaction_of_txn _ _ _ hseq, popNext]

/-- The code of DEV.LZQUERY is a parameter, read at its start (43_serial_protocol R297). -/
theorem lzquery_pseudocode :
    Pseudocode 0x00000039#32 (fun s => queryBegins s.params.lzCmd s) lzqueryAfterFrame noPosition
      (replyReceived escapeFinish) id where
  step hseq hagenda ha := by
    rw [step_of_transaction (i := .devLzquery) rfl nofun hseq hagenda ha]
    simp only [exec, execDevLzquery, inTransaction_of_txn _ _ _ hseq, popNext, transactionStep]

/-- The result of a query: an ESC first, and of DEV.MODEL a legal model byte behind it (43_serial_protocol R295 to
R297). -/
def queryVerdict (p : Params) (cmd : Word) (resp : List Byte) : ErrCode :=
  if resp.getD 0 0 ≠ 0x1B#8 then .framingError
  else if cmd = 0x00000037#32 ∧ resp.getD 1 0 ∉ p.modelSet then .framingError
  else .none

section Queries
variable {s : State} {cmd : Word} {q : Point} {l : Locals} {bytes resp more : List Byte} {rest : List Action}

theorem modelFinish_afterExchange (b : Byte) (hlen : 2 ≤ resp.length) (hfits : resp.length ≤ 16) :
    modelFinish b ((s.afterExchange bytes resp more rest).blockedAt cmd q l) =
      (s.afterExchange bytes resp more rest).completeWith (queryVerdict s.params 0x00000037#32 resp) := by
  have hbyte {j : Nat} (hj : j < 2) :
      ((s.afterExchange bytes resp more rest).blockedAt cmd q l).respByte j = resp.getD j 0 :=
    afterExchange_respByte hfits (by omega)
  have hset : ((s.afterExchange bytes resp more rest).blockedAt cmd q l).params.modelSet = s.params.modelSet := rfl
  have hesc : escByte = 0x1B#8 := rfl
  simp only [modelFinish, hbyte Nat.zero_lt_two, hbyte Nat.one_lt_two, hset, hesc, List.contains_iff_mem,
    blockedAt_completeWith, queryVerdict, true_and]
  split_ifs
  all_goals rfl

theorem escapeFinish_afterExchange (b : Byte) (hcmd : cmd ≠ 0x00000037#32) (hlen : 1 ≤ resp.length)
    (hfits : resp.length ≤ 16) :
    escapeFinish b ((s.afterExchange bytes resp more rest).blockedAt cmd q l) =
      (s.afterExchange bytes resp more rest).completeWith (queryVerdict s.params cmd resp) := by
  have hbyte : ((s.afterExchange bytes resp more rest).blockedAt cmd q l).respByte 0 = resp.getD 0 0 :=
    afterExchange_respByte hfits hlen
  have hesc : escByte = 0x1B#8 := rfl
  simp only [escapeFinish, hbyte, hesc, blockedAt_completeWith, queryVerdict, hcmd, false_and, if_false]
  split_ifs
  all_goals rfl

/-- A query: its command is sent, its response of `n` bytes received, and `finish` checks it. -/
theorem Pseudocode.runs_query {begins : State → State} {afterFrame : FrameWord → State → State}
    {finish : Byte → State → State} {code : Byte} {n : Nat} {e : ErrCode}
    (hcode : Pseudocode cmd begins afterFrame noPosition (replyReceived finish) id) (hseq : s.seq = .txn cmd .start l)
    (hbegins : begins s = queryBegins code s)
    (hreply : ∀ w u, u.params = s.params → afterFrame w u = u.receiveReply n fun s => s.completeWith .none)
    (hresp : resp.length = n) (hpos : 1 ≤ n) (hrx : s.rx = resp ++ more)
    (hagenda : s.agenda = [Action.block, .take, .take] ++ List.replicate n Action.deliver ++ rest)
    (hfinish : ∀ b moves, finish b ((s.afterExchange [0x1B#8, code] resp more moves).blockedAt cmd (.reply 1) l) =
      (s.afterExchange [0x1B#8, code] resp more moves).completeWith e) :
    runs (3 + n) s = .next ((s.afterExchange [0x1B#8, code] resp more rest).completeWith e) := by
  obtain rfl := hresp
  have hoffer : begins s = s.clearReply.blockedAt cmd (.frame (commandFrame code) .esc) l :=
    hbegins.trans (moveTo_eq_blockedAt _ .start _ l hseq)
  have hframe := hcode.runs_frame hseq hagenda hoffer rfl
  have hawait (u : State) (hu : u.params = s.params) (p : Point) (w : FrameWord) :
      (afterFrame w (u.blockedAt cmd p l)).pop = u.pop.blockedAt cmd (.reply resp.length) l := by
    rw [hreply w (u.blockedAt cmd p l) hu, receiveReply_of_pos (Nat.ne_of_gt hpos), blockedAt_moveTo, blockedAt_pop]
  have hresponse := hcode.runs_response (l := l) (s := s) (bytes := [0x1B#8, code]) (more := more) (rest := rest)
    (List.ne_nil_of_length_pos hpos)
  rw [hfinish, ← hrx] at hresponse
  rw [hawait] at hframe
  · exact (runs_add _ hframe).trans hresponse
  · rfl
end Queries

/-- Settles O57: each query is its command, its response and the check of that. -/
theorem queriesCheckTheirResponse : Obligations.QueriesCheckTheirResponse := by
  unfold Obligations.QueriesCheckTheirResponse
  intro s cmd code n resp more rest hcmd hseq hlen hpos hfits htwo hrx hagenda
  have hrun : runs (3 + n) s =
      .next ((s.afterExchange [0x1B#8, code] resp more rest).completeWith (queryVerdict s.params cmd resp)) := by
    simp only [List.mem_cons, List.not_mem_nil, or_false, Prod.mk.injEq] at hcmd
    rcases hcmd with ⟨rfl, rfl, rfl⟩ | ⟨rfl, rfl, rfl⟩ | ⟨rfl, rfl, rfl⟩
    · exact model_pseudocode.runs_query hseq rfl (fun _ u hu => by rw [modelAfterFrame, hu]) hlen hpos hrx hagenda
        fun b _ => modelFinish_afterExchange b (hlen.symm ▸ htwo rfl) (hlen.symm ▸ hfits)
    · exact firmware_pseudocode.runs_query hseq rfl (fun _ u hu => by rw [firmwareAfterFrame, hu]) hlen hpos hrx hagenda
        fun b _ => escapeFinish_afterExchange b (by decide) (hlen.symm ▸ hpos) (hlen.symm ▸ hfits)
    · exact lzquery_pseudocode.runs_query hseq rfl (fun _ u hu => by rw [lzqueryAfterFrame, hu]) hlen hpos hrx hagenda
        fun b _ => escapeFinish_afterExchange b (by decide) (hlen.symm ▸ hpos) (hlen.symm ▸ hfits)
  exact ⟨_, hrun, afterExchange_responseIs _ (hlen.symm ▸ hfits), afterExchange_endsWith _, fun _ => rfl, rfl, rfl, rfl⟩

end Sys2Proof.Machine

/-! ### A retried read whose START scan fails (44_retry R341, R342, 43_serial_protocol R277) -/

namespace Sys2Proof.Machine

theorem readAttempt_blockedAt (s : State) (cmd : Word) (p : Point) (l : Locals) (code : Byte) :
    readAttempt code (s.blockedAt cmd p l) = s.clearForRead.blockedAt cmd (.frame (commandFrame code) .esc) l := rfl

/-- The end of a failed attempt does not look at the position. -/
theorem endAttempt_blockedAt (s : State) (cmd : Word) (p : Point) (l : Locals) :
    endAttempt true .framingError (s.blockedAt cmd p l) =
      if l.maxAtt ≠ 0 ∧ l.maxAtt.toNat ≤ l.attempts then s.completeWith .framingError
      else (s.setAttempts (l.attempts + 1)).blockedAt cmd (.frame (commandFrame 0x61#8) .esc)
        { l with attempts := l.attempts + 1 } := rfl

theorem endAttempt_blockedAt_pop (s : State) (cmd : Word) (p : Point) (l : Locals) :
    (endAttempt true .framingError (s.blockedAt cmd p l)).pop =
      endAttempt true .framingError (s.pop.blockedAt cmd p l) := by
  rw [endAttempt_blockedAt, endAttempt_blockedAt, apply_ite State.pop]
  rfl

theorem startScan_blockedAt (s : State) (cmd : Word) (p : Point) (l : Locals) :
    startScan true (s.blockedAt cmd p l) =
      if s.params.startScan = 0 then endAttempt true .framingError (s.blockedAt cmd p l)
      else s.blockedAt cmd (.scan 0) l := rfl

theorem startScan_blockedAt_pop (s : State) (cmd : Word) (p : Point) (l : Locals) :
    (startScan true (s.blockedAt cmd p l)).pop = startScan true (s.pop.blockedAt cmd p l) := by
  rw [startScan_blockedAt, startScan_blockedAt, apply_ite State.pop, endAttempt_blockedAt_pop]
  rfl

namespace Pseudocode
variable {cmd : Word} {begins : State → State} {afterFrame : FrameWord → State → State} {sent : Point → State → State}
  {received : Point → Byte → State → State} {settled : State → State} {l : Locals}

/-- A command frame is sent, and the pseudocode goes on. -/
theorem runs_frame_wired (hcode : Pseudocode cmd begins afterFrame sent received settled) (s : State)
    (rx tx : List Byte) (code : Byte) (rest : List Action) :
    runs 2 ((s.wired rx tx ([Action.take, .take] ++ rest)).blockedAt cmd (.frame (commandFrame code) .esc) l) =
      .next (afterFrame (commandFrame code) ((s.wired rx (tx ++ [0x1B#8, code]) (.take :: rest)).blockedAt cmd
        (.frame (commandFrame code) .code) l)).pop := by
  rw [runs_succ 1 (hcode.step_take_escape (rest := .take :: rest) rfl),
    runs_one (hcode.step_take_code (rest := rest) rfl), first_commandFrame, second_commandFrame]
  have htx : tx ++ [0x1B#8, code] = tx ++ [0x1B#8] ++ [code] := by simp
  rw [htx]
  rfl

/-- Bytes other than START leave the scan going while it lasts (43_serial_protocol R277). -/
theorem receives_scan {rty : Bool} (hcode : Pseudocode cmd begins afterFrame sent (readReceived rty) settled)
    (s : State) (bytes : List Byte) (k : Nat) (hscan : k + bytes.length < s.params.startScan)
    (hbytes : 0x73#8 ∉ bytes) : State.receives cmd l s (.scan k) bytes s (.scan (k + bytes.length)) := by
  induction bytes generalizing k with
  | nil => exact leadsTo_refl
  | cons b bytes ih =>
    obtain ⟨hb, hbytes⟩ := not_or.1 (List.mem_cons.not.1 hbytes)
    rw [List.length_cons] at hscan
    have hnext : k + 1 < s.params.startScan := by omega
    have hbyte : State.receives cmd l s (.scan k) [b] s (.scan (k + 1)) :=
      hcode.receives_byte rfl fun _ _ _ => readReceived_scan (Ne.symm hb) hnext
    rw [List.length_cons, Nat.add_comm bytes.length, ← Nat.add_assoc]
    exact hbyte.trans (ih (k + 1) (by omega) hbytes)

/-- A scan in which no byte is START ends the attempt at its last byte, or at once when it has none. -/
theorem runs_failingScan (hcode : Pseudocode cmd begins afterFrame sent (readReceived true) settled) {s : State}
    {p : Point} {bytes more tx : List Byte} {rest : List Action} (hlen : bytes.length = s.params.startScan)
    (hbytes : 0x73#8 ∉ bytes) :
    runs s.params.startScan (startScan true ((s.wired (bytes ++ more) tx
        (List.replicate s.params.startScan .deliver ++ rest)).blockedAt cmd p l)) =
      .next (endAttempt true .framingError ((s.wired more tx rest).blockedAt cmd p l)) := by
  rw [startScan_blockedAt, wired_params, ← hlen]
  rcases List.eq_nil_or_concat' bytes with rfl | ⟨firsts, b, rfl⟩
  · rfl
  · rw [List.length_append, List.length_singleton] at hlen ⊢
    obtain ⟨hfirsts, hb⟩ := not_or.1 (List.mem_append.not.1 hbytes)
    have hscan := hcode.receives_scan (l := l) s firsts 0 (by omega) hfirsts (b :: more) tx (.deliver :: rest)
    rw [List.length_replicate, List.append_nil, Nat.zero_add] at hscan
    have hlast := hcode.step_deliver_wired (l := l) (s := s) (b := b) (more := more) (before := tx) (rest := rest)
      (p := .scan firsts.length) rfl
    have hend (u : State) (hu : u.params = s.params) (p : Point) :
        (readReceived true (.scan firsts.length) b (u.blockedAt cmd p l)).pop =
          endAttempt true .framingError (u.pop.blockedAt cmd p l) := by
      have hb' : b ≠ 0x73#8 := fun h => hb (h ▸ List.mem_singleton_self _)
      rw [readReceived_scan_last (s := u.blockedAt cmd p l) hb' (hu ▸ hlen.ge), endAttempt_blockedAt_pop]
    rw [hend] at hlast
    rw [if_neg (Nat.succ_ne_zero _), List.replicate_succ', List.append_assoc, List.append_assoc, List.singleton_append,
      List.singleton_append]
    · exact (runs_add 1 hscan).trans (runs_one hlast)
    · rfl
end Pseudocode

/-- The moves of one attempt whose START scan fails: the device reset, the settle wait, the command and the scan. -/
def failingMoves (p : Params) : List Action :=
  [Action.take, .take] ++ List.replicate p.settleTicks Action.tick ++
    ([Action.take, .take] ++ List.replicate p.startScan Action.deliver)

/-- Attempt `a` of at most `m` is counted and its device reset offered (44_retry R341, R342). -/
def State.attemptOffered (s : State) (cmd : Word) (m : BitVec 8) (a : Nat) : State :=
  (s.setAttempts a).blockedAt cmd (.frame (commandFrame 0x61#8) .esc) { attempts := a, maxAtt := m }

section FailingReads
variable {s : State} {cmd : Word} {code : Byte} {m : BitVec 8} {a : Nat} {l : Locals} {bytes more tx : List Byte}
  {rest : List Action}

/-- The start of a retried read is the offer of its first attempt. -/
theorem readBegins_eq_attemptOffered (hseq : s.seq = .txn cmd .start l) :
    readBegins true code s = s.attemptOffered cmd s.csr.ctrl.maxAtt 1 := by
  simp only [readBegins, if_true, State.setLocals, hseq]
  rfl

variable (hcode : Pseudocode cmd (readBegins true code) (readAfterFrame true code) noPosition (readReceived true)
  (readAttempt code))
include hcode

/-- Every attempt sends the device reset and waits the settle ticks before its command (44_retry R341). -/
theorem leadsTo_readCommand (s : State) :
    State.leadsTo cmd l s (.frame (commandFrame 0x61#8) .esc)
      ([Action.take, .take] ++ List.replicate s.params.settleTicks Action.tick) [] [0x1B#8, 0x61#8] s.clearForRead
      (.frame (commandFrame code) .esc) := by
  intro more before rest
  have hframe := hcode.runs_frame_wired (l := l) s more before 0x61#8
    (List.replicate s.params.settleTicks .tick ++ rest)
  rw [readAfterFrame_eq, if_pos ⟨rfl, rfl⟩, settleWait_pop (after := readAttempt code) _ fun _ => moveTo_pop _ _]
    at hframe
  have hwait := hcode.runs_settleWait (l := l) (fun _ _ _ => rfl) (fun _ => moveTo_pop _ _)
    (s := s.wired more (before ++ [0x1B#8, 0x61#8]) (List.replicate s.params.settleTicks .tick ++ rest)) (rest := rest)
    (p := .frame (commandFrame 0x61#8) .code) rfl
  rw [List.length_append, List.length_replicate, List.append_assoc]
  exact (runs_add _ hframe).trans hwait

/-- One attempt whose scan fails, from the offer of its device reset to its end. -/
theorem runs_failingAttempt (hread : code ≠ 0x61#8) (hlen : bytes.length = s.params.startScan)
    (hbytes : 0x73#8 ∉ bytes) :
    runs (failingMoves s.params).length
        ((s.wired (bytes ++ more) tx (failingMoves s.params ++ rest)).attemptOffered cmd m a) =
      .next (endAttempt true .framingError (State.blockedAt
        ((s.clearForRead.wired more (tx ++ [0x1B#8, 0x61#8, 0x1B#8, code]) rest).setAttempts a) cmd
        (.frame (commandFrame code) .code) { attempts := a, maxAtt := m })) := by
  have hreset := leadsTo_readCommand hcode (l := { attempts := a, maxAtt := m }) (s.setAttempts a) (bytes ++ more) tx
    ([Action.take, .take] ++ List.replicate s.params.startScan Action.deliver ++ rest)
  have hframe := hcode.runs_frame_wired (l := { attempts := a, maxAtt := m }) (s.setAttempts a).clearForRead
    (bytes ++ more) (tx ++ [0x1B#8, 0x61#8]) code (List.replicate s.params.startScan .deliver ++ rest)
  have hscan := hcode.runs_failingScan (l := { attempts := a, maxAtt := m }) (s := (s.setAttempts a).clearForRead)
    (p := .frame (commandFrame code) .code) (more := more) (tx := tx ++ [0x1B#8, 0x61#8] ++ [0x1B#8, code])
    (rest := rest) hlen hbytes
  rw [readAfterFrame_eq, if_neg (fun h => hread h.2), startScan_blockedAt_pop] at hframe
  have hrest := (runs_add _ hframe).trans hscan
  rw [List.append_assoc tx] at hrest
  have hmoves : (failingMoves s.params).length =
      ([Action.take, .take] ++ List.replicate s.params.settleTicks Action.tick).length + (2 + s.params.startScan) := by
    simp [failingMoves]
    omega
  rw [hmoves, failingMoves, List.append_assoc]
  exact (runs_add _ hreset).trans hrest

/-- A failed attempt that is not the last is followed by the next (44_retry R342). -/
theorem runs_failingAttempt_retried (hread : code ≠ 0x61#8) (hlen : bytes.length = s.params.startScan)
    (hbytes : 0x73#8 ∉ bytes) (hmore : m = 0 ∨ a < m.toNat) :
    runs (failingMoves s.params).length
        ((s.wired (bytes ++ more) tx (failingMoves s.params ++ rest)).attemptOffered cmd m a) =
      .next ((s.clearForRead.wired more (tx ++ [0x1B#8, 0x61#8, 0x1B#8, code]) rest).attemptOffered cmd m
        (a + 1)) := by
  have hnext : ¬ (m ≠ 0 ∧ m.toNat ≤ a) := by
    rintro ⟨hm, hle⟩
    exact hmore.elim hm (Nat.not_lt.2 hle)
  rw [runs_failingAttempt hcode hread hlen hbytes, endAttempt_blockedAt, if_neg hnext]
  rfl

/-- The last allowed attempt ends the operation (44_retry R342). -/
theorem runs_failingAttempt_last (hread : code ≠ 0x61#8) (hlen : bytes.length = s.params.startScan)
    (hbytes : 0x73#8 ∉ bytes) (hm : m ≠ 0) (hlast : m.toNat ≤ a) :
    runs (failingMoves s.params).length
        ((s.wired (bytes ++ more) tx (failingMoves s.params ++ rest)).attemptOffered cmd m a) =
      .next (((s.clearForRead.wired more (tx ++ [0x1B#8, 0x61#8, 0x1B#8, code]) rest).setAttempts a).completeWith
        .framingError) := by
  rw [runs_failingAttempt hcode hread hlen hbytes, endAttempt_blockedAt, if_pos ⟨hm, hlast⟩]

/-- After `n` failed attempts the next is offered, as long as there may be another; what they leave behind, the next
attempt clears too. -/
theorem runs_failingAttempts (hread : code ≠ 0x61#8) (n : Nat) (hlen : bytes.length = n * s.params.startScan)
    (hbytes : 0x73#8 ∉ bytes) (hmore : m = 0 ∨ a + n ≤ m.toNat) :
    ∃ u : State, u.clearForRead = s.clearForRead ∧
      runs (n * (failingMoves s.params).length) ((s.wired (bytes ++ more) tx
          ((List.replicate n (failingMoves s.params)).flatten ++ rest)).attemptOffered cmd m a) =
        .next ((u.wired more (tx ++ (List.replicate n [0x1B#8, 0x61#8, 0x1B#8, code]).flatten) rest).attemptOffered
          cmd m (a + n)) := by
  induction n generalizing s bytes tx a with
  | zero =>
    obtain rfl : bytes = [] := List.eq_nil_of_length_eq_zero (by simpa using hlen)
    refine ⟨s, rfl, ?_⟩
    simp
  | succ n ih =>
    have hfirst : (bytes.take s.params.startScan).length = s.params.startScan := by
      rw [List.length_take, hlen, Nat.succ_mul]
      omega
    have hothers : (bytes.drop s.params.startScan).length = n * s.params.startScan := by
      rw [List.length_drop, hlen, Nat.succ_mul, Nat.add_sub_cancel]
    have hone := runs_failingAttempt_retried hcode (tx := tx) (more := bytes.drop s.params.startScan ++ more)
      (rest := (List.replicate n (failingMoves s.params)).flatten ++ rest) hread hfirst
      (fun h => hbytes (List.mem_of_mem_take h)) (hmore.imp_right fun h => show a < m.toNat by omega)
    rw [← List.append_assoc, List.take_append_drop] at hone
    obtain ⟨u, hclear, hrun⟩ := ih (s := s.clearForRead) (tx := tx ++ [0x1B#8, 0x61#8, 0x1B#8, code]) (a := a + 1)
      hothers (fun h => hbytes (List.mem_of_mem_drop h)) (hmore.imp_right fun h => by omega)
    refine ⟨u, hclear, ?_⟩
    rw [Nat.succ_mul, Nat.add_comm, List.replicate_succ, List.flatten_cons, List.append_assoc, runs_add _ hone,
      List.replicate_succ, List.flatten_cons, ← List.append_assoc, ← Nat.add_assoc, Nat.add_right_comm]
    exact hrun
/-- A retried read whose scan fails again and again, from its start to the offer of attempt `n + 1`. -/
theorem runs_to_attempt (hread : code ≠ 0x61#8) (hseq : s.seq = .txn cmd .start l) (n : Nat)
    (hlen : bytes.length = (n + 1) * s.params.startScan) (hbytes : 0x73#8 ∉ bytes)
    (hmax : s.csr.ctrl.maxAtt = 0 ∨ n + 1 ≤ s.csr.ctrl.maxAtt.toNat) (hrx : s.rx = bytes ++ more)
    (hagenda : s.agenda = .block :: (List.replicate (n + 1) (failingMoves s.params)).flatten ++ rest) :
    ∃ (u : State) (last : List Byte), u.clearForRead = s.clearForRead ∧ last.length = s.params.startScan ∧
      0x73#8 ∉ last ∧ runs (1 + n * (failingMoves s.params).length) s =
        .next ((u.wired (last ++ more) (s.sent ++ (List.replicate n [0x1B#8, 0x61#8, 0x1B#8, code]).flatten)
          (failingMoves s.params ++ rest)).attemptOffered cmd s.csr.ctrl.maxAtt (n + 1)) := by
  have hfirsts : (bytes.take (n * s.params.startScan)).length = n * s.params.startScan := by
    rw [List.length_take, hlen, Nat.succ_mul]
    omega
  have hlast : (bytes.drop (n * s.params.startScan)).length = s.params.startScan := by
    rw [List.length_drop, hlen, Nat.succ_mul, Nat.add_sub_cancel_left]
  obtain ⟨u, hclear, hrun⟩ := runs_failingAttempts hcode (s := s) (m := s.csr.ctrl.maxAtt) (a := 1) (tx := s.sent)
    (more := bytes.drop (n * s.params.startScan) ++ more) (rest := failingMoves s.params ++ rest) hread n hfirsts
    (fun h => hbytes (List.mem_of_mem_take h)) (hmax.imp_right fun h => by omega)
  rw [← List.append_assoc, List.take_append_drop, ← hrx, Nat.add_comm 1 n] at hrun
  refine ⟨u, _, hclear, hlast, fun h => hbytes (List.mem_of_mem_drop h), ?_⟩
  rw [List.cons_append, List.replicate_succ', List.flatten_append, List.flatten_singleton, List.append_assoc] at hagenda
  have hstart := hcode.step_block hseq hagenda
  rw [readBegins_eq_attemptOffered hseq] at hstart
  have hoffer : (s.attemptOffered cmd s.csr.ctrl.maxAtt 1).pop =
      (s.wired s.rx s.sent ((List.replicate n (failingMoves s.params)).flatten ++ (failingMoves s.params ++ rest))
        ).attemptOffered cmd s.csr.ctrl.maxAtt 1 := by
    rw [← List.tail_cons (a := Action.block) (as := _ ++ _), ← hagenda]
    rfl
  rw [runs_add _ (runs_one hstart), hoffer, hrun]
end FailingReads

/-- The next attempt is offered with what the one before emptied. -/
theorem attemptOffered_blocksAt (s : State) (cmd : Word) (m : BitVec 8) (a : Nat) (rx tx : List Byte)
    (moves : List Action) :
    s.blocksAt ((s.clearForRead.wired rx tx moves).attemptOffered cmd m a) cmd (.frame 0x1B61#16 .esc)
      { attempts := a, maxAtt := m }
      { clearedForRead s.csr with
        status := { s.csr.status with tkerr := 0, attempts := BitVec.ofNat 8 (min a 255) } } :=
  ⟨rfl, rfl, rfl, rfl, rfl⟩

/-- The last attempt ends with what it emptied; `MAX_ATT` has eight bits, so its number is not saturated. -/
theorem lastAttempt_endsWith (s : State) {a : Nat} (ha : a ≤ 255) (rx tx : List Byte) (moves : List Action) :
    s.endsWith (((s.clearForRead.wired rx tx moves).setAttempts a).completeWith .framingError)
      { clearedForRead s.csr with status := { s.csr.status with tkerr := 0, attempts := BitVec.ofNat 8 a } }
      .framingError := by
  have hends := completeWith_endsWith (s := s) (u := (s.clearForRead.wired rx tx moves).setAttempts a)
    ⟨rfl, rfl, rfl⟩ .framingError
  have hcsr : ((s.clearForRead.wired rx tx moves).setAttempts a).csr = { clearedForRead s.csr with
      status := { s.csr.status with tkerr := 0, attempts := BitVec.ofNat 8 (min a 255) } } := rfl
  rwa [hcsr, Nat.min_eq_left ha] at hends

/-- Settles O60: every failed attempt but the last allowed one offers the next; the last ends the operation. -/
theorem failingReadsAreRetriedUpToTheLimit : Obligations.FailingReadsAreRetriedUpToTheLimit := by
  unfold Obligations.FailingReadsAreRetriedUpToTheLimit
  intro s cmd code k bytes more rest attempt hcmd hseq hk hmax hbytes hlen hrx hattempt hagenda
  have hread : code ≠ 0x61#8 ∧ Pseudocode cmd (readBegins true code) (readAfterFrame true code) noPosition
      (readReceived true) (readAttempt code) := by
    simp only [List.mem_cons, List.not_mem_nil, or_false, Prod.mk.injEq] at hcmd
    rcases hcmd with ⟨rfl, rfl⟩ | ⟨rfl, rfl⟩
    · exact ⟨by decide, read_pseudocode (i := .devReadiso true) (by simp) rfl⟩
    · exact ⟨by decide, read_pseudocode (i := .devReadraw true) (by simp) rfl⟩
  obtain ⟨hread, hcode⟩ := hread
  obtain rfl : attempt = failingMoves s.params := by rw [hattempt, failingMoves, List.append_assoc]
  obtain ⟨n, rfl⟩ := Nat.exists_eq_add_of_le' hk
  obtain ⟨u, last, hclear, hlast, hstart, hrun⟩ := runs_to_attempt hcode hread hseq n hlen hbytes hmax hrx hagenda
  have hparams : u.params = s.params := (congrArg State.params hclear :)
  have hsent : s.sent ++ (List.replicate n [0x1B#8, 0x61#8, 0x1B#8, code]).flatten ++ [0x1B#8, 0x61#8, 0x1B#8, code] =
      s.sent ++ (List.replicate (n + 1) [0x1B#8, 0x61#8, 0x1B#8, code]).flatten := by
    rw [List.append_assoc, List.replicate_succ', List.flatten_append, List.flatten_singleton]
  rw [← hparams] at hlast hrun
  rw [Nat.succ_mul, ← Nat.add_assoc, ← hparams, runs_add _ hrun]
  by_cases hend : n + 1 = s.csr.ctrl.maxAtt.toNat
  · have hne : s.csr.ctrl.maxAtt ≠ 0 := fun h => absurd (hend.trans (congrArg BitVec.toNat h)) n.succ_ne_zero
    rw [runs_failingAttempt_last hcode hread hlast hstart hne hend.ge, hclear, hsent]
    have hfits : n + 1 ≤ 255 := hend ▸ Nat.le_of_lt_succ s.csr.ctrl.maxAtt.isLt
    exact ⟨_, rfl, fun _ => rfl, rfl, rfl, rfl, fun _ => lastAttempt_endsWith s hfits _ _ _, fun h => absurd hend h⟩
  · have hmore := hmax.imp_right fun h => Nat.lt_of_le_of_ne h hend
    rw [runs_failingAttempt_retried hcode hread hlast hstart hmore, hclear, hsent]
    exact ⟨_, rfl, fun _ => rfl, rfl, rfl, rfl, fun h => absurd h hend,
      fun _ => attemptOffered_blocksAt s cmd _ _ _ _ _⟩

end Sys2Proof.Machine

/-! ### NOP (45_control R350) -/

namespace Sys2Proof.Machine

/-- NOP is completion and nothing before it. -/
theorem exec_nop (s : State) : exec .nop s = .next (s.completeWith .none) :=
  congrArg Host.Outcome.next (performIf_true s fun s => (s, .none))

/-- Settles O26: the one effect is completion, which writes no memory and no stream. -/
theorem nopOnlyCompletes : Obligations.NopOnlyCompletes := by
  unfold Obligations.NopOnlyCompletes
  intro s
  exact ⟨s.completeWith .none, exec_nop s, completeWith_endsWith (u := s) ⟨rfl, rfl, rfl⟩ .none, fun _ => rfl,
    ⟨rfl, rfl, rfl⟩⟩

end Sys2Proof.Machine

/-! ### Legality by the operation map and the bounds (60_exceptions R371) -/

namespace Sys2Proof.Machine

section Legality
variable {s : State} {v : Word} {i : Instr}

/-- The operations of 43_serial_protocol are those with an OPC from 0x30 on (30_encoding R121). -/
theorem isTransaction_of_encode (h : encode i = .command v) : isTransaction i = decide (0x30 ≤ v.toNat % 256) := by
  cases i with
  | nop | getbit | setbit | revbyte | revtrack | unpack | revbits | rectify | peakfind | extract | demod | decodeAba
  | decodeIata | devReset | devCommtest | devReadiso | devReadraw | devWriteiso | devWriteraw | devErase | devModel
  | devFirmware | devLzquery | devXcmd =>
    obtain rfl := CodeWord.command.inj h
    rw [commandWord_opc]
    rfl
  | _ => nomatch h

/-- The bound of EXTRACT (41_demodulator R211), as the operation map's bounds deny it. -/
theorem intervalsLegal_iff_not_outOfBounds : s.intervalsLegal = true ↔
    ¬ (s.params.niMax < s.csr.nint.toNat ∨
      ∃ k < s.csr.nint.toNat, (s.ivl k).toNat = 0 ∨ 0x7FFFFFFF < (s.ivl k).toNat) := by
  rw [intervalsLegal_iff]
  push Not
  simp only [Nat.one_le_iff_ne_zero, ne_eq]

/-- The bounds that acceptance checks are those of the operation's OPC. -/
theorem operandsLegal_iff (h : encode i = .command v) :
    operandsLegal i s = true ↔ ¬ s.outOfBounds (v.toNat % 256) := by
  cases i with
  | rectify | peakfind | demod =>
    obtain rfl := CodeWord.command.inj h
    simp [commandWord_opc, operandsLegal, State.outOfBounds, State.samplesLegal]
  | extract =>
    obtain rfl := CodeWord.command.inj h
    simp [commandWord_opc, operandsLegal, State.outOfBounds, intervalsLegal_iff_not_outOfBounds]
  | revbits | decodeAba | decodeIata =>
    obtain rfl := CodeWord.command.inj h
    simp [commandWord_opc, operandsLegal, State.outOfBounds, State.bitstringLegal]
  | devXcmd =>
    obtain rfl := CodeWord.command.inj h
    simp [commandWord_opc, operandsLegal, State.outOfBounds, State.payloadLegal]
  | nop | getbit | setbit | revbyte | revtrack | unpack | devReset | devCommtest | devReadiso | devReadraw | devWriteiso
  | devWriteraw | devErase | devModel | devFirmware | devLzquery =>
    obtain rfl := CodeWord.command.inj h
    simp [commandWord_opc, operandsLegal, State.outOfBounds]
  | _ => nomatch h

theorem commandLegal_iff_exists :
    commandLegal v s = true ↔ ∃ i, decodeCommand v = .ok i ∧ i.wellFormed = true ∧ operandsLegal i s = true := by
  cases hdec : decodeCommand v with
  | ok i => simp [commandLegal, hdec]
  | error e => simp [commandLegal, hdec]

/-- What acceptance checks is what 60_exceptions R371 calls legal. -/
theorem commandLegal_iff : commandLegal v s = true ↔ ¬ s.isIllegal v := by
  rw [commandLegal_iff_exists, State.isIllegal, not_or]
  push Not
  constructor
  · rintro ⟨i, hdec, hwf, hlegal⟩
    obtain ⟨r, hr, hadmits, -⟩ := (commandWordsFollowTheOperationMap v i).1 ⟨hdec, hwf⟩
    exact ⟨⟨r, hr, hadmits⟩, (operandsLegal_iff (encode_of_decodeCommand hdec)).1 hlegal⟩
  · rintro ⟨⟨r, hr, hadmits⟩, hbounds⟩
    obtain ⟨hdec, hwf⟩ := (commandWordsFollowTheOperationMap v _).2 ⟨r, hr, hadmits, rfl⟩
    exact ⟨_, hdec, hwf, (operandsLegal_iff (encode_of_decodeCommand hdec)).2 hbounds⟩

/-- A legal word names a transaction exactly when its OPC is one of a DEV operation (60_exceptions R370). -/
theorem namesTransaction_of_not_isIllegal (h : ¬ s.isIllegal v) :
    namesTransaction v = decide (0x30 ≤ v.toNat % 256) := by
  obtain ⟨i, hdec, -⟩ := commandLegal_iff_exists.1 (commandLegal_iff.2 h)
  simp only [namesTransaction, hdec, isTransaction_of_encode (encode_of_decodeCommand hdec)]

/-! ### Acceptance and refusal (60_exceptions R370, R371, R373) -/

theorem issue_of_not_isIllegal (h : ¬ s.isIllegal v) :
    s.issue v =
      { s with
        csr := { s.csr with cmd := v, status := s.csr.status.accepted }
        seq := if 0x30 ≤ v.toNat % 256 then .txn v .start .empty else .run v } := by
  have hlegal : commandLegal v (s.withCsr { s.csr with cmd := v }) = true := commandLegal_iff.2 h
  simp only [State.issue, if_pos hlegal, namesTransaction_of_not_isIllegal h, decide_eq_true_eq]
  rfl

theorem issue_of_isIllegal (h : s.isIllegal v) :
    s.issue v = { s with csr := { s.csr with cmd := v, status := s.csr.status.refused } } := by
  have hillegal : ¬ commandLegal v (s.withCsr { s.csr with cmd := v }) = true := fun hl => commandLegal_iff.1 hl h
  simp only [State.issue, if_neg hillegal]
  rfl

/-- While not BUSY, a word written to `CMD` is issued. -/
theorem hostAccess_issue (hbusy : s.csr.status.busy = false) :
    s.hostAccess (.write 0x04#32 .word v) = (s.issue v).reply 0 false := by
  rw [show (0x04#32) = BitVec.ofNat 32 4 from rfl, hostAccess_write_csr (by omega) rfl]
  simp [hbusy, State.writeCsr]
end Legality

/-- Settles O22: the word is issued, and what `commandLegal` admits is what is not illegal. -/
theorem legalCommandIsAccepted : Obligations.LegalCommandIsAccepted := by
  unfold Obligations.LegalCommandIsAccepted
  intro s v hbusy hlegal
  rw [hostAccess_issue hbusy, issue_of_not_isIllegal hlegal]
  rfl

/-- Settles O23: the word is issued, and what `commandLegal` denies is what is illegal. -/
theorem illegalCommandIsRefused : Obligations.IllegalCommandIsRefused := by
  unfold Obligations.IllegalCommandIsRefused
  intro s v hbusy hillegal
  rw [hostAccess_issue hbusy, issue_of_isIllegal hillegal]
  rfl

/-! ### When DONE rises (60_exceptions R376, R377, 10_state R40) -/

section DoneAtHostAccess
variable {s : State}

theorem memRead_done (a : Word) (n : Width) : (s.memRead a n).csr.status.done = s.csr.status.done := by
  unfold State.memRead
  split
  · rfl
  · split
    · rfl
    · rfl

/-- While BUSY no host write sets DONE. -/
theorem writeWhileBusy_done {a : Nat} {v : Word} (h : s.csr.status.done = false) :
    (s.writeWhileBusy a v).csr.status.done = false := by
  unfold State.writeWhileBusy
  split_ifs
  · simp [Status.acknowledge, h]
  · rfl
  · exact h
  · exact h

/-- While not BUSY no host write to a register but `CMD` sets DONE. -/
theorem writeCsr_done {offset : Nat} {v : Word} (h : s.csr.status.done = false) (hoffset : offset ≠ 0x04) :
    (s.writeCsr offset v).csr.status.done = false := by
  rcases writeCsr_cases s offset v with ⟨-, -, he⟩ | ⟨hcmd, -⟩ | ⟨-, he⟩ | ⟨c, he, hstatus, -⟩
  · rw [he]
    rfl
  · exact absurd hcmd hoffset
  · simp [he, Status.acknowledge, h]
  · rw [he, withCsr_csr, hstatus, h]

/-- An access of a register is a word access (20_memory R92, R93). -/
theorem width_of_accessedWindow_csr {p : Params} {a : Word} {n : Width} (h : accessedWindow p a n = some .csr) :
    n = .word := by
  unfold accessedWindow at h
  split at h
  · split at h
    · rename_i hw
      obtain rfl := Option.some.inj h
      exact hw.1.symm
    · cases h
  · cases h

/-- Of all host accesses only a write of `CMD` while not BUSY can set DONE. -/
theorem write_cmd_of_hostAccess_done {a : Access} (h : s.csr.status.done = false)
    (hdone : (s.hostAccess a).csr.status.done = true) :
    (∃ v, a = .write 0x04#32 .word v) ∧ s.csr.status.busy = false := by
  cases a with
  | read a n => exact absurd ((memRead_done a n).symm.trans hdone) (by simp [h])
  | write a n v =>
    simp only [State.hostAccess, State.memWrite] at hdone
    split at hdone
    · exact absurd (h.symm.trans hdone) Bool.false_ne_true
    · rename_i w hw
      split at hdone
      · exact absurd ((writeWhileBusy_done h).symm.trans hdone) Bool.false_ne_true
      · rename_i hbusy
        cases w with
        | csr =>
          have ha : a.toNat = 4 := by
            by_contra hne
            exact absurd ((writeCsr_done h hne).symm.trans hdone) Bool.false_ne_true
          obtain rfl := width_of_accessedWindow_csr hw
          obtain rfl : a = 0x04#32 := BitVec.eq_of_toNat_eq ha
          exact ⟨⟨v, rfl⟩, Bool.not_eq_true _ ▸ hbusy⟩
        | trk | dec | bs | smp | ivl => exact absurd (h.symm.trans hdone) Bool.false_ne_true

/-- A word whose writing sets DONE is refused. -/
theorem refused_of_issue_done {v : Word} (hdone : (s.issue v).csr.status.done = true) :
    (s.issue v).csr.status.errcode = .illegalCommand ∧ (s.issue v).seq = s.seq := by
  by_cases hillegal : s.isIllegal v
  · rw [issue_of_isIllegal hillegal]
    exact ⟨rfl, rfl⟩
  · rw [issue_of_not_isIllegal hillegal] at hdone
    cases hdone
end DoneAtHostAccess

/-- An operation with DONE set has ended. -/
def State.endedIfDone (s : State) : Prop := s.csr.status.done = true → s.seq = .idle

section DoneAtBlockStep
variable {s t : State}

theorem endedIfDone_of_not_done (h : s.csr.status.done = false) : s.endedIfDone := fun hdone =>
  absurd (h.symm.trans hdone) Bool.false_ne_true

theorem State.endedIfDone.congr (h : s.endedIfDone) (hdone : t.csr.status.done = s.csr.status.done)
    (hseq : t.seq = s.seq) : t.endedIfDone := by
  unfold State.endedIfDone
  rw [hdone, hseq]
  exact h

/-- The pseudocode of a transaction sets DONE in completion only, which is its end (60_exceptions R374). -/
theorem endedIfDone_kept : KeptByTransactions State.endedIfDone where
  moveTo {s} p h := by
    cases hseq : s.seq with
    | txn cmd q l =>
      rw [moveTo_of_txn s p q l hseq]
      exact fun hdone => absurd ((h hdone).symm.trans hseq) nofun
    | run | idle => simpa only [State.moveTo, hseq] using h
  completeWith _ _ := fun _ => rfl
  sendByte _ h := h.congr rfl rfl
  takeFromStream _ h := h.congr rfl rfl
  setLocals {s} l h := by
    cases hseq : s.seq with
    | txn cmd q l' => exact fun hdone => absurd ((h (by simpa using hdone)).symm.trans hseq) nofun
    | run | idle => simpa only [State.setLocals, hseq] using h
  setAttempts _ h := h.congr rfl rfl
  setLaststat _ h := h.congr rfl rfl
  clearReply h := h.congr rfl rfl
  appendReply _ h := h.congr (by simp) (by simp)
  clearForRead h := h.congr rfl rfl
  trackError _ h := h.congr (by simp [State.trackError, State.setTkerr]) rfl
  storeTrackByte {s} t b h := by
    rcases storeTrackByte_cases s t b with ⟨-, he⟩ | ⟨-, he⟩
    all_goals
      rw [he]
      exact h.congr (by simp [State.writeTrk]) rfl

theorem performIf_seq (s : State) (legal : Bool) (body : State → State × ErrCode) :
    (s.performIf legal body).seq = .idle := by
  rcases performIf_cases s legal body with ⟨-, he⟩ | ⟨-, he⟩
  all_goals rw [he, completeWith_seq]

theorem performOnTrack_seq (s : State) (trk : BitVec 2) (body : Track → State → State × ErrCode) :
    (s.performOnTrack trk body).seq = .idle := by
  unfold State.performOnTrack
  split
  · exact performIf_seq s _ _
  · rfl

/-- What is no transaction is a compute operation, which ends in its one step, or a frame. -/
theorem exec_seq_of_not_transaction {i : Instr} (hi : isTransaction i = false) (ht : exec i s = .next t) :
    t.seq = .idle ∨ ∃ code, t = emitFrame code s := by
  cases i with
  | nop | revbyte | revbits | rectify | peakfind | extract | demod | decodeAba | decodeIata =>
    exact .inl (Host.Outcome.next.inj ht ▸ performIf_seq _ _ _)
  | getbit | setbit | revtrack | unpack => exact .inl (Host.Outcome.next.inj ht ▸ performOnTrack_seq _ _ _)
  | devReset | devCommtest | devReadiso | devReadraw | devWriteiso | devWriteraw | devErase | devModel | devFirmware
  | devLzquery | devXcmd => cases hi
  | _ => exact .inr ⟨_, (Host.Outcome.next.inj ht).symm⟩

/-- An instruction that sets DONE has ended its operation, in whatever state it is taken. -/
theorem exec_endedIfDone {i : Instr} (h : s.csr.status.done = false) (ht : exec i s = .next t) : t.endedIfDone := by
  cases hi : isTransaction i with
  | false =>
    rcases exec_seq_of_not_transaction hi ht with hidle | ⟨code, rfl⟩
    · exact fun _ => hidle
    · exact endedIfDone_kept.emitFrame code (endedIfDone_of_not_done h)
  | true =>
    obtain ⟨cmd, he⟩ := exec_eq_exec_inTransaction hi s
    obtain ⟨_, _, _, hseq⟩ := exists_inTransaction_seq s cmd
    have hbegun : (s.inTransaction cmd).csr.status.done = false := by
      rcases inTransaction_seq s cmd with hs | hs
      all_goals rwa [hs]
    exact endedIfDone_kept.exec_transaction hi hseq (endedIfDone_of_not_done hbegun) (he ▸ ht)

theorem blockStep_endedIfDone (h : s.csr.status.done = false) (ht : blockStep s = .next t) : t.endedIfDone := by
  unfold blockStep at ht
  split at ht
  · exact Host.Outcome.next.inj ht ▸ endedIfDone_of_not_done h
  · split at ht
    · exact exec_endedIfDone h ht
    · exact Host.Outcome.next.inj ht ▸ fun _ => rfl
end DoneAtBlockStep

/-- Settles O24, by what each agent's move can do: the host sets DONE only by a word that is refused, the block only in
completion, the device and a step in which nobody moves never. -/
theorem doneRisesOnlyAtCompletionOrRefusal : Obligations.DoneRisesOnlyAtCompletionOrRefusal := by
  unfold Obligations.DoneRisesOnlyAtCompletionOrRefusal
  refine ⟨fun s => Bool.and_eq_true_iff, fun s t hstep hbefore hafter => ?_⟩
  rcases step_cases hstep with ⟨a, he, rfl⟩ | ⟨b, -, rfl⟩ | ⟨hmoves, u, hu, rfl⟩ | ⟨-, rfl⟩
  · obtain ⟨⟨v, rfl⟩, hbusy⟩ := write_cmd_of_hostAccess_done hbefore hafter
    rw [hostAccess_issue hbusy] at hafter ⊢
    exact .inr ⟨⟨v, List.head?_eq_some_iff.1 he⟩, hbusy, refused_of_issue_done hafter⟩
  · exact absurd (hbefore.symm.trans hafter) Bool.false_ne_true
  · have hended := blockStep_endedIfDone hbefore hu
    exact .inl ⟨not_idle_of_blockMoves hmoves, hended hafter⟩
  · exact absurd (hbefore.symm.trans hafter) Bool.false_ne_true

/-! ### Events nobody waits for (60_exceptions R381 to R383) -/

section UnawaitedEvents
variable {s : State} {a : Action} {rest : List Action}

/-- A transport event or a tick is a move of neither the host nor the device. -/
theorem ofTransaction_of_mem (ha : a ∈ [.take, .deliver, .error, .tick]) : a.ofTransaction = true := by
  simp only [List.mem_cons, List.not_mem_nil, or_false] at ha
  rcases ha with rfl | rfl | rfl | rfl
  all_goals rfl

/-- When the block does not move, and neither the host nor the device does, the step only takes the move off. -/
theorem step_of_not_blockMoves (hevent : s.event = some a) (ha : a.ofTransaction = true) (h : s.blockMoves = false) :
    step s = .next s.pop := by
  unfold step
  split
  · rename_i he
    obtain rfl := Option.some.inj (hevent.symm.trans he)
    cases ha
  · rename_i he
    obtain rfl := Option.some.inj (hevent.symm.trans he)
    cases ha
  · rw [h]
    rfl

/-- Outside a transaction the block looks at no event. -/
theorem not_blockMoves_of_no_transaction (hevent : s.event = some a) (ha : a ∈ [.take, .deliver, .error, .tick])
    (hseq : ∀ cmd p l, s.seq ≠ .txn cmd p l) : s.blockMoves = false := by
  cases hs : s.seq with
  | txn cmd p l => exact absurd hs (hseq cmd p l)
  | run | idle =>
    simp only [List.mem_cons, List.not_mem_nil, or_false] at ha
    rcases ha with rfl | rfl | rfl | rfl
    all_goals simp [State.blockMoves, hevent, hs]

/-- In a command frame only a take and an error count. -/
theorem frameStep_of_not_awaits {w : FrameWord} {b : FrameByte} {after : State → State} (hevent : s.event = some a)
    (htake : a ≠ .take) (herror : a ≠ .error) : frameStep w b after s = s := by
  unfold frameStep
  split
  · rename_i he
    exact absurd (Option.some.inj (hevent.symm.trans he)) htake
  · rename_i he
    exact absurd (Option.some.inj (hevent.symm.trans he)) herror
  · rfl

/-- Whatever its pseudocode, a transaction stays as it is at an event that its position does not wait for. -/
theorem transactionStep_of_not_awaits {begins : State → State} {afterFrame : FrameWord → State → State}
    {sent : Point → State → State} {received : Point → Byte → State → State} {settled : State → State} {cmd : Word}
    {p : Point} {l : Locals} (hseq : s.seq = .txn cmd p l) (hevent : s.event = some a)
    (ha : a ∈ [.take, .deliver, .error, .tick]) (h : ¬ s.awaits a) :
    transactionStep begins afterFrame sent received settled s = s := by
  have hwaiting : s.waiting = p.waiting := by simp only [State.waiting, hseq]
  unfold transactionStep
  rw [hseq]
  simp only
  split
  · refine frameStep_of_not_awaits hevent ?_ ?_
    · rintro rfl
      exact h hwaiting
    · rintro rfl
      exact h (.inl hwaiting)
  · rw [hevent]
    split <;> rename_i hw he
    · cases he
    · obtain rfl := Option.some.inj he
      simp at ha
    · obtain rfl := Option.some.inj he
      exact absurd (hwaiting.trans hw) h
    · obtain rfl := Option.some.inj he
      exact absurd (.inl (hwaiting.trans hw)) h
    · obtain rfl := Option.some.inj he
      split
      · rfl
      · rename_i hrx
        exact absurd ⟨hwaiting.trans hw, by simp [hrx]⟩ h
    · obtain rfl := Option.some.inj he
      exact absurd (.inr (hwaiting.trans hw)) h
    · obtain rfl := Option.some.inj he
      exact absurd ⟨_, hwaiting.trans hw⟩ h
    · rfl
end UnawaitedEvents

/-- Settles O47: an idle block and a compute operation do not move at the event, and a transaction does not go on. -/
theorem unawaitedEventsChangeNothing : Obligations.UnawaitedEventsChangeNothing := by
  unfold Obligations.UnawaitedEventsChangeNothing
  intro s a rest hcons hagenda ha hawaits
  have hevent : s.event = some a := by rw [State.event, hagenda, List.head?_cons]
  have hmove := ofTransaction_of_mem ha
  have hpop : s.pop = { s with agenda := rest } := by rw [State.pop, hagenda, List.tail_cons]
  rw [← hpop]
  cases hseq : s.seq with
  | idle | run =>
    have hmoves := not_blockMoves_of_no_transaction hevent ha (by simp [hseq])
    exact step_of_not_blockMoves hevent hmove hmoves
  | txn cmd p l =>
    obtain ⟨i, henc, hi⟩ := exists_encode_of_consistent hcons hseq
    obtain ⟨_, _, _, _, hexec⟩ := exec_eq_transactionStep hi hseq
    rw [step_of_transaction henc (firstCode_ne_none hi s.params) hseq hagenda hmove, hexec,
      transactionStep_of_not_awaits hseq hevent ha hawaits]
    rfl

end Sys2Proof.Machine

/-! ### What takes the block out of IDLE (70_reset R404) -/

namespace Sys2Proof.Machine

section LeavingIdle
variable {s : State}

theorem fetched_of_idle (hidle : s.seq = .idle) : s.fetched = none := by
  simp only [State.fetched, hidle]

/-- In IDLE a step in which neither the host nor the device moves only takes the move off. -/
theorem step_of_idle (hidle : s.seq = .idle) (hhost : ∀ a, s.agenda.head? ≠ some (.host a))
    (hdevice : ∀ b, s.agenda.head? ≠ some (.device b)) : step s = .next s.pop := by
  obtain ⟨t, ht⟩ := exists_step_eq_next s
  rcases step_cases ht with ⟨a, he, -⟩ | ⟨b, he, -⟩ | ⟨hmoves, -⟩ | ⟨-, rfl⟩
  · exact absurd he (hhost a)
  · exact absurd he (hdevice b)
  · exact absurd hidle (not_idle_of_blockMoves hmoves)
  · exact ht

/-- Only a reply, HAZ and the count of draws come of a host read (20_memory R95, R101). -/
theorem memRead_seq (a : Word) (n : Width) : (s.memRead a n).seq = s.seq := by
  unfold State.memRead
  split
  · rfl
  · split
    · rfl
    · rfl

/-- While BUSY no host write starts an operation (20_memory R100). -/
theorem writeWhileBusy_seq_of_idle (a : Nat) (v : Word) (hidle : s.seq = .idle) :
    (s.writeWhileBusy a v).seq = .idle := by
  unfold State.writeWhileBusy
  split_ifs
  · exact hidle
  · rfl
  · exact hidle
  · exact hidle

/-- While not BUSY no host write to a register but `CMD` starts an operation. -/
theorem writeCsr_seq_of_idle {offset : Nat} (v : Word) (hidle : s.seq = .idle) (hoffset : offset ≠ 0x04) :
    (s.writeCsr offset v).seq = .idle := by
  rcases writeCsr_cases s offset v with ⟨-, -, he⟩ | ⟨hcmd, -⟩ | ⟨-, he⟩ | ⟨c, he, -, -⟩
  · rw [he]
    rfl
  · exact absurd hcmd hoffset
  · rwa [he]
  · rwa [he]

/-- Of all host accesses in IDLE only a write of `CMD` while not BUSY can start an operation. -/
theorem write_cmd_of_hostAccess_not_idle {a : Access} (hidle : s.seq = .idle)
    (hleaves : (s.hostAccess a).seq ≠ .idle) :
    (∃ v, a = .write 0x04#32 .word v) ∧ s.csr.status.busy = false := by
  cases a with
  | read a n => exact absurd ((memRead_seq a n).trans hidle) hleaves
  | write a n v =>
    simp only [State.hostAccess, State.memWrite] at hleaves
    split at hleaves
    · exact absurd hidle hleaves
    · rename_i w hw
      split at hleaves
      · exact absurd (writeWhileBusy_seq_of_idle _ v hidle) hleaves
      · rename_i hbusy
        cases w with
        | csr =>
          have ha : a.toNat = 4 := by
            by_contra hne
            exact absurd (writeCsr_seq_of_idle v hidle hne) hleaves
          obtain rfl := width_of_accessedWindow_csr hw
          obtain rfl : a = 0x04#32 := BitVec.eq_of_toNat_eq ha
          exact ⟨⟨v, rfl⟩, Bool.not_eq_true _ ▸ hbusy⟩
        | trk | dec | bs | smp | ivl => exact absurd hidle hleaves

/-- An issued word is accepted, and the sequencer starts it, or refused, and the sequencer stays (60_exceptions R370,
R371). -/
theorem issue_seq_cases (s : State) (v : Word) :
    (s.issue v).seq = .run v ∨ (s.issue v).seq = .txn v .start .empty ∨ (s.issue v).seq = s.seq := by
  by_cases hillegal : s.isIllegal v
  · exact .inr (.inr (by rw [issue_of_isIllegal hillegal]))
  · rw [issue_of_not_isIllegal hillegal]
    by_cases hdev : 0x30 ≤ v.toNat % 256
    · exact .inr (.inl (if_pos hdev))
    · exact .inl (if_neg hdev)
end LeavingIdle

/-- Settles O25, by what each agent's move can do to an idle sequencer: the host's starts it by a word written to `CMD`
and accepted, the device's leaves it alone, and the block has none. -/
theorem idleWaitsForACommandWrite : Obligations.IdleWaitsForACommandWrite := by
  unfold Obligations.IdleWaitsForACommandWrite
  intro s hidle
  refine ⟨fetched_of_idle hidle, step_of_idle hidle, fun t hstep hleaves => ?_⟩
  rcases step_cases hstep with ⟨a, he, rfl⟩ | ⟨b, -, rfl⟩ | ⟨hmoves, -⟩ | ⟨-, rfl⟩
  · obtain ⟨⟨v, rfl⟩, hbusy⟩ := write_cmd_of_hostAccess_not_idle hidle hleaves
    obtain ⟨rest, hagenda⟩ := List.head?_eq_some_iff.1 he
    rw [hostAccess_issue hbusy] at hleaves ⊢
    rcases issue_seq_cases s v with hrun | htxn | hkept
    · exact ⟨v, rest, hagenda, .inl hrun⟩
    · exact ⟨v, rest, hagenda, .inr htxn⟩
    · exact absurd (hkept.trans hidle) hleaves
  · exact absurd hidle hleaves
  · exact absurd hidle (not_idle_of_blockMoves hmoves)
  · exact absurd hidle hleaves

end Sys2Proof.Machine
